-- ==== Sys2Proof/Word.lean ====
section
/-! DEFINITION. The plain word types of the block (spec/00_scope.md R8, spec/20_memory.md R42): a byte, a code of the
packer, an operation select code, and byte sequences with the two sequence operations of R9 that have no library name. -/

namespace Sys2Proof

/-- One byte: the unit of every access, and one character of a strip or an alphabet (R42). -/
abbrev Byte := BitVec 8

/-- A code: the index of a symbol in its alphabet, at most 6 bits wide (R12, R17). -/
abbrev Code := BitVec 6

/-- A host operation select code `OPSEL` (R25, R79). -/
abbrev OpSel := BitVec 5

/-- A byte sequence of R9. Equal sequences are equal lists, so this is its one canonical form. -/
abbrev Bytes := List Byte

end Sys2Proof
end

