-- ==== Sys2Proof/Config.lean ====
section
/-! DEFINITION. The implementation parameters of spec/00_scope.md R5, as ONE record that a State carries and no operation
writes, so that every statement about every state is about every value of the parameters ("A model takes each as an
argument"). `Config.default` is R5's default column; a parameter R5 gives no default is an opaque constant there. The free values of U24 stand here too. -/

namespace Sys2Proof

/-- The alphabet select of a `TRACK_CFG` triple (R28): 0 = `ALPHA_T1`, 1 = `ALPHA_T23`. -/
inductive AlphaSel where
  | t1
  | t23
deriving DecidableEq, Repr

/-- One `TRACK_CFG[k]` configuration register (R28): alphabet select, `code_width` (3 bits), `output_width` (4 bits). -/
structure TrackCfg where
  sel         : AlphaSel
  codeWidth   : BitVec 3
  outputWidth : BitVec 4
deriving DecidableEq, Repr

/-- The parameters of R5. `BUF_MAX` is held as its excess `bufSlack` over the least value `1 + DRAIN_MAX` that R5 and
R219 allow, so that the constraint between the two holds by construction (`Config.bufMax`). -/
structure Config where
  esc         : Byte
  fs          : Byte
  chS         : Byte
  chQM        : Byte
  stOK        : Byte
  opcReset    : Byte
  opcReadIso  : Byte
  opcReadRaw  : Byte
  opcWriteIso : Byte
  opcWriteRaw : Byte
  opcErase    : Byte
  opcSetBpc   : Byte
  opcSetBpi   : Byte
  opcSetHico  : Byte
  opcSetLoco  : Byte
  alphaT1     : Bytes
  alphaT23    : Bytes
  track1      : TrackCfg
  track2      : TrackCfg
  track3      : TrackCfg
  drainMax    : Nat
  bufSlack    : Nat
  tShort      : Nat
  tLong       : Nat
  tSettleTx   : Nat
  tSettleRx   : Nat
  markErr     : Byte
  markOk      : Byte
deriving DecidableEq, Repr

namespace Config

/-- `BUF_MAX` (R5): the capacity in bytes of every operand and result buffer, at least `1 + DRAIN_MAX`. -/
def bufMax (c : Config) : Nat := 1 + c.drainMax + c.bufSlack

/-- A byte sequence of `n` bytes fits a buffer. It is `n ≤ BUF_MAX` (`Laws.Config.fits_iff`), written so that it can be
evaluated for small `n` while `BUF_MAX` stays open (notes/assumptions/2.md). -/
def fits (c : Config) (n : Nat) : Bool := Nat.ble (n - (1 + c.drainMax)) c.bufSlack

/-- `POSW` (R5, R18): the least width with `2^POSW > 4*BUF_MAX + 1`. -/
def posw (c : Config) : Nat := Nat.log2 (4 * c.bufMax + 1) + 1

/-- Open parameter: how far `BUF_MAX` exceeds `1 + DRAIN_MAX` (R5 "none", D11, D18). -/
opaque openBufSlack : Nat
/-- Open parameter `T_SHORT` (R5 "none", D19). -/
opaque openTShort : Nat
/-- Open parameter `T_LONG` (R5 "none", D19). -/
opaque openTLong : Nat
/-- Open parameter `T_SETTLE_TX` (R5 "none", D19). -/
opaque openTSettleTx : Nat
/-- Open parameter `T_SETTLE_RX` (R5 "none", D19). -/
opaque openTSettleRx : Nat
/-- Open parameter `MARK_ERR` (R5 "none", D10). -/
opaque openMarkErr : Byte
/-- Open parameter `MARK_OK` (R5 "none", D10). -/
opaque openMarkOk : Byte

/-! ### Free values

`ACC`, `CNT`, `LRC`, `POS`, `LASTNZ` after an operation are "any value" (spec/93_implementation_defined.md U24): these have
no body, and the n-th draw is the argument n (notes/assumptions/9.md). -/

/-- What `ACC` holds after a PACK or UNPACK, before it is cut to `CNT` bits. -/
opaque freeAcc : Nat → BitVec 14
/-- What `CNT` holds after a PACK or UNPACK, within its range 0..14 (R16). -/
opaque freeCnt : Nat → Fin 15
/-- What `LRC` holds after a PACK or UNPACK. -/
opaque freeLrc : Nat → BitVec 6
/-- What `POS` holds after an UNPACK, before it is cut to `POSW` bits. -/
opaque freePos : Nat → Nat
/-- What `LASTNZ` holds after an UNPACK, where the register can hold it. -/
opaque freeLastnz : Nat → Option Nat

/-- The default column of R5. PRESUMED: the byte values, opcodes and alphabets are the spec's own defaults "from general
knowledge, not in source" (notes/assumptions/1.md). -/
def default : Config where
  esc         := 0x1B
  fs          := 0x1C
  chS         := 0x73
  chQM        := 0x3F
  stOK        := 0x30
  opcReset    := 0x61
  opcReadIso  := 0x72
  opcReadRaw  := 0x6D
  opcWriteIso := 0x77
  opcWriteRaw := 0x6E
  opcErase    := 0x63
  opcSetBpc   := 0x6F
  opcSetBpi   := 0x62
  opcSetHico  := 0x78
  opcSetLoco  := 0x79
  alphaT1     := (List.range 64).map fun c => BitVec.ofNat 8 (0x20 + c)
  alphaT23    := (List.range 16).map fun c => BitVec.ofNat 8 (0x30 + c)
  track1      := ⟨.t1, 6, 8⟩
  track2      := ⟨.t23, 4, 8⟩
  track3      := ⟨.t23, 4, 8⟩
  drainMax    := 1000
  bufSlack    := openBufSlack
  tShort      := openTShort
  tLong       := openTLong
  tSettleTx   := openTSettleTx
  tSettleRx   := openTSettleRx
  markErr     := openMarkErr
  markOk      := openMarkOk

end Config
end Sys2Proof
end

