-- ==== Sys2Proof/Syntax.lean ====
section
/-! DEFINITION. The operations of the block, one constructor per row of spec/opcode_table.json: the nineteen host
operations of spec/30_encoding.md R79 with the scalar operands presented beside `OPSEL` (spec/10_state.md R20), and the
ten wire commands of R64 with the payload of R65. Buffer operands (`IN0..2`) stand in State, not here. -/

namespace Sys2Proof

/-- An operation of the block. The docstring of each constructor gives its table row's rule. -/
inductive Instr where
  /-- `PACK(IN0, A, w, ow)`, R93. -/
  | pack (A : Bytes) (w ow : Nat)
  /-- `UNPACK(IN0, A, w, ow)`, R99. -/
  | unpack (A : Bytes) (w ow : Nat)
  /-- `ISOENC(IN0, IN1, IN2)`, R113. -/
  | isoenc
  /-- `ISODEC(IN0)`, R116. -/
  | isodec
  /-- `RAWENC(IN0, IN1, IN2)`, R129. -/
  | rawenc
  /-- `RAWDEC(IN0)`, R132. -/
  | rawdec
  /-- `SEND(IN0)`, R143. -/
  | send
  /-- `SENDWAIT(IN0, timeout)`, R153. -/
  | sendwait (timeout : Nat)
  /-- `PARSE(IN0)`, R157. -/
  | parse
  /-- `RESET()`, R171: the device command, not a reset of the block. -/
  | reset
  /-- `READ_ISO()`, R172. -/
  | readIso
  /-- `READ_RAW()`, R173. -/
  | readRaw
  /-- `WRITE_ISO(IN0, IN1, IN2)`, R174. -/
  | writeIso
  /-- `WRITE_RAW(IN0, IN1, IN2)`, R175. -/
  | writeRaw
  /-- `ERASE(t1, t2, t3)`, R176. -/
  | erase (t1 t2 t3 : Bool)
  /-- `SET_HICO()`, R177. -/
  | setHico
  /-- `SET_LOCO()`, R177. -/
  | setLoco
  /-- `SET_BPI(m1, m2, m3)`, R178. -/
  | setBpi (m1 m2 m3 : Option Byte)
  /-- `SET_BPC(b1, b2, b3)`, R179. -/
  | setBpc (b1 b2 b3 : Byte)
  /-- Wire command reset, `ESC OPC_RESET` (R64, R171). -/
  | cmdReset
  /-- Wire command read (ISO), `ESC OPC_READ_ISO` (R64, R172). -/
  | cmdReadIso
  /-- Wire command read (raw), `ESC OPC_READ_RAW` (R64, R173). -/
  | cmdReadRaw
  /-- Wire command write (ISO), `ESC OPC_WRITE_ISO block` (R65, R174). -/
  | cmdWriteIso (block : Bytes)
  /-- Wire command write (raw), `ESC OPC_WRITE_RAW block` (R65, R175). -/
  | cmdWriteRaw (block : Bytes)
  /-- Wire command erase, `ESC OPC_ERASE mask` (R65, R176). -/
  | cmdErase (mask : Byte)
  /-- Wire command set-bits-per-character, `ESC OPC_SET_BPC b1 b2 b3` (R65, R179). -/
  | cmdSetBpc (b1 b2 b3 : Byte)
  /-- Wire command set-bits-per-inch, `ESC OPC_SET_BPI mode` (R65, R178). -/
  | cmdSetBpi (mode : Byte)
  /-- Wire command set-coercivity high, `ESC OPC_SET_HICO` (R64, R177). -/
  | cmdSetHico
  /-- Wire command set-coercivity low, `ESC OPC_SET_LOCO` (R64, R177). -/
  | cmdSetLoco
deriving DecidableEq, Repr

end Sys2Proof
end

