-- ==== Sys2Proof/WellFormed.lean ====
section
/-! DEFINITION. What makes the parameters well-formed (spec/70_reset_and_hazards.md R219) and what makes an operation
well-formed, that is one the encodings of spec/30_encoding.md describe. A host operation is well-formed whatever its
scalar operands: an operand outside the packer's ranges is a legal request that raises `EncodingPrecondition` (R91). Of
the wire commands the payload must have the layout of R65. -/

namespace Sys2Proof

/-- The ten opcode parameters, in the order of the table of R64. -/
def Config.opcodes (c : Config) : List Byte :=
  [c.opcReset, c.opcReadIso, c.opcReadRaw, c.opcWriteIso, c.opcWriteRaw,
   c.opcErase, c.opcSetBpc, c.opcSetBpi, c.opcSetHico, c.opcSetLoco]

/-- One `TRACK_CFG` register satisfies the packer's preconditions of R91, and a raw strip of at most 255 bytes unpacked
with it fits a result buffer (R205). -/
def TrackCfg.wf (c : Config) (t : TrackCfg) : Bool :=
  1 ≤ t.codeWidth.toNat && t.codeWidth.toNat ≤ 6 &&
  1 ≤ t.outputWidth.toNat && t.outputWidth.toNat ≤ 8 &&
  (match t.sel with | .t1 => c.alphaT1 | .t23 => c.alphaT23).length == 2 ^ t.codeWidth.toNat &&
  c.fits (255 * t.outputWidth.toNat / (t.codeWidth.toNat + 1))

/-- The constraints R219 puts on the parameters: ten pairwise distinct opcodes (R64), alphabets of 64 and 16 entries
(R15), packer preconditions for every track, `DRAIN_MAX ≥ 779`; `BUF_MAX ≥ 1 + DRAIN_MAX` holds by construction. -/
def Config.wf (c : Config) : Bool :=
  decide c.opcodes.Nodup &&
  c.alphaT1.length == 64 && c.alphaT23.length == 16 &&
  c.track1.wf c && c.track2.wf c && c.track3.wf c &&
  decide (779 ≤ c.drainMax)

/-- The bytes of `B` after the first place where the two bytes `a b` stand, or `none`. -/
def afterMarker (a b : Byte) : Bytes → Option Bytes
  | x :: y :: rest => if x = a ∧ y = b then some rest else afterMarker a b (y :: rest)
  | _ => none

/-- `B` has the ISO datablock layout of R69: header, strip 1, `ESC 0x02`, strip 2, `ESC 0x03`, strip 3, `'?' FS`. -/
def isoLayout (c : Config) (B : Bytes) : Bool :=
  let body := B.drop 4
  let strips := body.take (body.length - 2)
  decide (B.take 4 = [c.esc, c.chS, c.esc, 0x01]) &&
  decide (body.drop (body.length - 2) = [c.chQM, c.fs]) &&
  match afterMarker c.esc 0x02 strips with
  | some rest => (afterMarker c.esc 0x03 rest).isSome
  | none => false

/-- What is left of a raw datablock after its segment for track `k`, the whole of it when that segment is omitted (R72). -/
def dropRawSegment (c : Config) (k : Byte) : Bytes → Bytes
  | e :: t :: len :: rest =>
    if e = c.esc ∧ t = k ∧ 0 < len.toNat ∧ len.toNat ≤ rest.length then rest.drop len.toNat else e :: t :: len :: rest
  | B => B

/-- `B` has the raw datablock layout of R72 as the encoder emits it: header, the segments of the non-empty strips in
the order 1, 2, 3, trailer. -/
def rawLayout (c : Config) (B : Bytes) : Bool :=
  decide (B.take 2 = [c.esc, c.chS]) &&
  decide (dropRawSegment c 0x03 (dropRawSegment c 0x02 (dropRawSegment c 0x01 (B.drop 2))) = [c.chQM, c.fs])

/-- Well-formedness of an operation (R65 for the wire commands with a structured payload; true of every other). -/
def Instr.wf (c : Config) : Instr → Bool
  | .cmdErase mask => decide (mask.toNat < 8)
  | .cmdWriteIso block => isoLayout c block
  | .cmdWriteRaw block => rawLayout c block
  | .pack _ _ _ => true
  | .unpack _ _ _ => true
  | .isoenc => true
  | .isodec => true
  | .rawenc => true
  | .rawdec => true
  | .send => true
  | .sendwait _ => true
  | .parse => true
  | .reset => true
  | .readIso => true
  | .readRaw => true
  | .writeIso => true
  | .writeRaw => true
  | .erase _ _ _ => true
  | .setHico => true
  | .setLoco => true
  | .setBpi _ _ _ => true
  | .setBpc _ _ _ => true
  | .cmdReset => true
  | .cmdReadIso => true
  | .cmdReadRaw => true
  | .cmdSetBpc _ _ _ => true
  | .cmdSetBpi _ => true
  | .cmdSetHico => true
  | .cmdSetLoco => true

end Sys2Proof
end

