-- ==== Sys2Proof/Decode.lean ====
section
/-! DEFINITION. The decoder, total on any request, refusing by name; after it the encoder; both from the tables of
spec/30_encoding.md R79 (host operation select) and R63 to R65 (command frame). -/

namespace Sys2Proof

/-- The scalar operands "presented beside `OPSEL`" (R20): ports, not buffers. The spec gives them no bit layout, so they
are held as the values they are (notes/assumptions/3.md). An operation reads only its own. -/
structure Scalars where
  alphabet : Bytes       := []
  w        : Nat         := 0
  ow       : Nat         := 0
  timeout  : Nat         := 0
  t1       : Bool        := false
  t2       : Bool        := false
  t3       : Bool        := false
  m1       : Option Byte := none
  m2       : Option Byte := none
  m3       : Option Byte := none
  b1       : Byte        := 0
  b2       : Byte        := 0
  b3       : Byte        := 0
deriving DecidableEq, Repr

/-- What the decoder reads: a host operation select with its scalars (R79), or a whole command frame as it stands on the
link (R63; the model's way to run a wire-command row by itself, notes/assumptions/4.md). -/
inductive Request where
  | op (opsel : OpSel) (args : Scalars)
  | wire (frame : Bytes)
deriving DecidableEq, Repr

/-- Why the decoder refuses a request. -/
inductive DecodeError where
  /-- `OPSEL` 0x00, 0x0A..0x0F or 0x1A..0x1F (R80). -/
  | reservedOpsel (code : OpSel)
  /-- The frame does not begin with `ESC` and an opcode byte (R63). -/
  | notAFrame
  /-- The opcode byte is none of the ten of R64. -/
  | unknownOpcode (opcode : Byte)
  /-- The payload has not the length R65 gives the command. -/
  | badPayload (opcode : Byte)
deriving DecidableEq, Repr

/-- The host operation of an `OPSEL` code with its scalars (R79); the reserved codes of R80 are refused. -/
def decodeOp (op : OpSel) (a : Scalars) : Except DecodeError Instr :=
  match op.toNat with
  | 0x01 => .ok (.pack a.alphabet a.w a.ow)
  | 0x02 => .ok (.unpack a.alphabet a.w a.ow)
  | 0x03 => .ok .isoenc
  | 0x04 => .ok .isodec
  | 0x05 => .ok .rawenc
  | 0x06 => .ok .rawdec
  | 0x07 => .ok .send
  | 0x08 => .ok (.sendwait a.timeout)
  | 0x09 => .ok .parse
  | 0x10 => .ok .reset
  | 0x11 => .ok .readIso
  | 0x12 => .ok .readRaw
  | 0x13 => .ok .writeIso
  | 0x14 => .ok .writeRaw
  | 0x15 => .ok (.erase a.t1 a.t2 a.t3)
  | 0x16 => .ok .setHico
  | 0x17 => .ok .setLoco
  | 0x18 => .ok (.setBpi a.m1 a.m2 a.m3)
  | 0x19 => .ok (.setBpc a.b1 a.b2 a.b3)
  | _ => .error (.reservedOpsel op)

/-- `i` when the payload is empty (R65: payload "none"). -/
def noPayload (opcode : Byte) (i : Instr) : Bytes → Except DecodeError Instr
  | [] => .ok i
  | _ => .error (.badPayload opcode)

/-- The operation of a one-byte payload (R65: erase, set-bits-per-inch). -/
def onePayload (opcode : Byte) (f : Byte → Instr) : Bytes → Except DecodeError Instr
  | [b] => .ok (f b)
  | _ => .error (.badPayload opcode)

/-- The operation of a three-byte payload (R65: set-bits-per-character). -/
def threePayload (opcode : Byte) (f : Byte → Byte → Byte → Instr) : Bytes → Except DecodeError Instr
  | [b1, b2, b3] => .ok (f b1 b2 b3)
  | _ => .error (.badPayload opcode)

/-- The wire command of an opcode byte and its payload (R64, R65). -/
def decodeCommand (c : Config) (o : Byte) (p : Bytes) : Except DecodeError Instr :=
  if o = c.opcReset then noPayload o .cmdReset p
  else if o = c.opcReadIso then noPayload o .cmdReadIso p
  else if o = c.opcReadRaw then noPayload o .cmdReadRaw p
  else if o = c.opcWriteIso then .ok (.cmdWriteIso p)
  else if o = c.opcWriteRaw then .ok (.cmdWriteRaw p)
  else if o = c.opcErase then onePayload o .cmdErase p
  else if o = c.opcSetBpc then threePayload o .cmdSetBpc p
  else if o = c.opcSetBpi then onePayload o .cmdSetBpi p
  else if o = c.opcSetHico then noPayload o .cmdSetHico p
  else if o = c.opcSetLoco then noPayload o .cmdSetLoco p
  else .error (.unknownOpcode o)

/-- A command frame: `ESC`, opcode, payload (R63). -/
def decodeWire (c : Config) : Bytes → Except DecodeError Instr
  | e :: o :: p => if e = c.esc then decodeCommand c o p else .error .notAFrame
  | _ => .error .notAFrame

/-- The decoder. -/
def decode (c : Config) : Request → Except DecodeError Instr
  | .op opsel args => decodeOp opsel args
  | .wire frame => decodeWire c frame

/-- The encoder: the request that stands for an operation, from the same tables (R79, R63 to R65). -/
def encode (c : Config) : Instr → Request
  | .pack A w ow => .op 0x01 { alphabet := A, w := w, ow := ow }
  | .unpack A w ow => .op 0x02 { alphabet := A, w := w, ow := ow }
  | .isoenc => .op 0x03 {}
  | .isodec => .op 0x04 {}
  | .rawenc => .op 0x05 {}
  | .rawdec => .op 0x06 {}
  | .send => .op 0x07 {}
  | .sendwait timeout => .op 0x08 { timeout := timeout }
  | .parse => .op 0x09 {}
  | .reset => .op 0x10 {}
  | .readIso => .op 0x11 {}
  | .readRaw => .op 0x12 {}
  | .writeIso => .op 0x13 {}
  | .writeRaw => .op 0x14 {}
  | .erase t1 t2 t3 => .op 0x15 { t1 := t1, t2 := t2, t3 := t3 }
  | .setHico => .op 0x16 {}
  | .setLoco => .op 0x17 {}
  | .setBpi m1 m2 m3 => .op 0x18 { m1 := m1, m2 := m2, m3 := m3 }
  | .setBpc b1 b2 b3 => .op 0x19 { b1 := b1, b2 := b2, b3 := b3 }
  | .cmdReset => .wire [c.esc, c.opcReset]
  | .cmdReadIso => .wire [c.esc, c.opcReadIso]
  | .cmdReadRaw => .wire [c.esc, c.opcReadRaw]
  | .cmdWriteIso block => .wire (c.esc :: c.opcWriteIso :: block)
  | .cmdWriteRaw block => .wire (c.esc :: c.opcWriteRaw :: block)
  | .cmdErase mask => .wire [c.esc, c.opcErase, mask]
  | .cmdSetBpc b1 b2 b3 => .wire [c.esc, c.opcSetBpc, b1, b2, b3]
  | .cmdSetBpi mode => .wire [c.esc, c.opcSetBpi, mode]
  | .cmdSetHico => .wire [c.esc, c.opcSetHico]
  | .cmdSetLoco => .wire [c.esc, c.opcSetLoco]

/-- How many payload bytes of a frame the table's sixteen bits leave out and R65 fixes the number of: they read as zero. -/
def fixedPayload (c : Config) (o : Byte) : Nat :=
  if o = c.opcErase ∨ o = c.opcSetBpi then 1 else if o = c.opcSetBpc then 3 else 0

/-- The request of an opcode-table row's bits `w`, numbered as the table numbers them: a row of at most eight bits is an
`OPSEL` code in bits 4..0 (R79) with every scalar zero; a row of sixteen bits is the first two bytes of a frame, byte 0 in
bits 15..8 (R63 and the rows' own note), with the payload bytes of a fixed-length payload zero. -/
def requestOfTableWord (c : Config) (nbits w : Nat) : Option Request :=
  if nbits ≤ 8 then
    if w < 32 then some (.op (BitVec.ofNat 5 w) {}) else none
  else if nbits ≤ 16 then
    let o := BitVec.ofNat 8 w
    some (.wire (BitVec.ofNat 8 (w / 256) :: o :: List.replicate (fixedPayload c o) 0))
  else none

/-- The operation the decoder reads from an opcode-table row's bits, under the default parameters. -/
def decodeTableWord (nbits w : Nat) : Option Instr :=
  match requestOfTableWord Config.default nbits w with
  | some r => (decode Config.default r).toOption
  | none => none

end Sys2Proof
end

