-- ==== Sys2Proof/Machine/State.lean ====
section
/-! DEFINITION. The machine's state: every piece of state spec/10_state.md gives the block, its parameters, and three model
fields: `host` and `dev` hold what the two other agents, the host and the device, do next (spec/43_transport.md R161; notes/assumptions/8.md),
and `draws` counts the free values drawn (spec/93_implementation_defined.md U24; notes/assumptions/9.md). -/

namespace Sys2Proof.Machine

/-- The transport FSM's states (R24). Codes 10..15 are unreachable (U25) and have no constructor. -/
inductive TState where
  | idle | flush | tx | settleTx | waitFirst | settleRx | drain | parse | done | error
deriving DecidableEq, Repr

/-- The 4-bit numbering of R24. -/
def TState.code : TState → BitVec 4
  | .idle => 0 | .flush => 1 | .tx => 2 | .settleTx => 3 | .waitFirst => 4
  | .settleRx => 5 | .drain => 6 | .parse => 7 | .done => 8 | .error => 9

/-- The value of `ERR_KIND` (R27, R191). Codes 5..7 are never written (U25). -/
inductive ErrKind where
  | none | transportTimeout | framingError | deviceStatusError | encodingPrecondition
deriving DecidableEq, Repr

/-- The 3-bit codes of R191. -/
def ErrKind.code : ErrKind → BitVec 3
  | .none => 0 | .transportTimeout => 1 | .framingError => 2 | .deviceStatusError => 3 | .encodingPrecondition => 4

/-- The error registers (R27). The default value is the cleared one. -/
structure ErrRegs where
  kind   : ErrKind := .none
  offset : Nat     := 0
  status : Byte    := 0
  op     : OpSel   := 0
  arg    : Byte    := 0
  raw    : Bytes   := []
deriving DecidableEq, Repr

/-- An error as a statement raises it (R10, R191), before the entry writes it into the registers. -/
inductive Err where
  /-- `TransportTimeout(op)`, R192. -/
  | timeout
  /-- `FramingError(offset, raw)`, R193. -/
  | framing (offset : Nat) (raw : Bytes)
  /-- `DeviceStatusError(op, status, arg)`, R194. -/
  | deviceStatus (status arg : Byte)
  /-- `EncodingPrecondition(op, arg)`, R195. -/
  | precondition (arg : Byte)
deriving DecidableEq, Repr

/-- An operand buffer `INk` with its `INk_PRESENT` tag (R20). -/
structure InBuf where
  bytes   : Bytes := []
  present : Bool  := false
deriving DecidableEq, Repr

/-- The result buffers of one track: `OUTk` with `OUTk_PRESENT`, `MRKk`, `TOTLENk`, `LRC_ERRk` (R20). The default value
is the cleared one. -/
structure OutBuf where
  bytes   : Bytes     := []
  present : Bool      := false
  marks   : List Bool := []
  totlen  : Nat       := 0
  lrcErr  : Bool      := false
deriving DecidableEq, Repr

/-- The response registers `RSP_STATUS`, `RSP_IMM`, `RSP_DATA` (R22). -/
structure Response where
  status : Byte  := 0
  imm    : Bytes := []
  data   : Bytes := []
deriving DecidableEq, Repr

/-- What the host can do to the block between two operations (R20, R79, R161, R216, R218). -/
inductive HostAct where
  /-- Fill operand buffer `INk` and its tag. -/
  | load (k : Fin 3) (bytes : Bytes) (present : Bool)
  /-- Request an operation. -/
  | request (r : Request)
  /-- Let time pass; the device may send. -/
  | idle
  /-- The reset event; `rx` is what the device has sent by then, the unspecified content of `RXF` (R33, U23). -/
  | reset (rx : Bytes)
  /-- Close the link (R218). -/
  | teardown
deriving DecidableEq, Repr

/-- The state. -/
structure State where
  /-- The parameters and the configuration registers `TRACK_CFG` (R5, R28). -/
  cfg      : Config
  /-- `ACC` (R16). -/
  acc      : BitVec 14
  /-- `CNT` (R16). -/
  cnt      : BitVec 4
  /-- `LRC` (R17). -/
  lrc      : Code
  /-- `POS` (R18). -/
  pos      : Nat
  /-- `LASTNZ` (R18). -/
  lastnz   : Option Nat
  /-- `IN0` (R20). -/
  in0      : InBuf
  /-- `IN1` (R20). -/
  in1      : InBuf
  /-- `IN2` (R20). -/
  in2      : InBuf
  /-- `OUT0`, `MRK0`, `TOTLEN0`, `LRC_ERR0` (R20). -/
  out0     : OutBuf
  /-- `OUT1`, `MRK1`, `TOTLEN1`, `LRC_ERR1` (R20). -/
  out1     : OutBuf
  /-- `OUT2`, `MRK2`, `TOTLEN2`, `LRC_ERR2` (R20). -/
  out2     : OutBuf
  /-- `RXBUF`; `RXLEN` is its length (R21). -/
  rxbuf    : Bytes
  /-- The response registers (R22). -/
  rsp      : Response
  /-- `TXS`, every byte written to the link, in order (R23). -/
  txs      : Bytes
  /-- `RXF`, the receive FIFO, front first (R23). -/
  rxf      : Bytes
  /-- The link is open: the block is constructed and not torn down (R23, R211). -/
  linkOpen : Bool
  /-- `TSTATE` (R24). -/
  tstate   : TState
  /-- `OPSEL` (R25). -/
  opsel    : OpSel
  /-- `BUSY` (R25). -/
  busy     : Bool
  /-- `MSTEP` (R25). -/
  mstep    : BitVec 2
  /-- `TMR` (R26). -/
  tmr      : Nat
  /-- `ERR_KIND` .. `ERR_RAW` (R27). -/
  err      : ErrRegs
  /-- The MODEL's own: what the host does next, first act first (R161). -/
  host     : List HostAct
  /-- The MODEL's own: what the device sends next. One entry is taken before each transition of the transport FSM and by
  each idle step, and joins `RXF` then (R145, R161). -/
  dev      : List Bytes
  /-- The MODEL's own: how many times the working registers have been discarded, the argument of the next free values
  (U24). -/
  draws    : Nat
deriving DecidableEq, Repr

/-- The machine stops. No rule of the spec stops the block (spec/93_implementation_defined.md Part 1: "Nothing in this
block is `stuck`"). -/
inductive Fault where
  /-- The transport FSM had not reached `S_DONE` or `S_ERROR` after the seven transitions R145 gives it. Raised by
  `afterTransaction`; safe, and reached from no state (`Laws.transact_ends`). -/
  | transportStuck
deriving DecidableEq, Repr

/-- Why an operation has no meaning. A request the block turns away (R205) is no refusal of the model's: it is a next
state in which nothing has changed (notes/assumptions/5.md). -/
inductive Refusal where
  /-- Raised by no arm of `exec`; safe. -/
  | notModelled (mnemonic : String)
deriving DecidableEq, Repr

/-- The state of R33 right after the reset event, for parameters `c`, when `RXF` holds `rx` (any finite byte sequence,
R33, U23). `TMR` is 0 (notes/assumptions/7.md). -/
def State.resetWith (c : Config) (rx : Bytes) : State where
  cfg      := c
  acc      := 0
  cnt      := 0
  lrc      := 0
  pos      := 0
  lastnz   := none
  in0      := {}
  in1      := {}
  in2      := {}
  out0     := {}
  out1     := {}
  out2     := {}
  rxbuf    := []
  rsp      := {}
  txs      := []
  rxf      := rx
  linkOpen := true
  tstate   := .idle
  opsel    := 0
  busy     := false
  mstep    := 0
  tmr      := 0
  err      := {}
  host     := []
  dev      := []
  draws    := 0

/-- The machine right after reset (R33, R216) with the default parameters and `RXF` empty, the start state of
spec/95_test_vectors.md Part 3 (notes/assumptions/7.md). -/
def State.reset : State := State.resetWith Config.default []

end Sys2Proof.Machine
end

