-- ==== Sys2Proof/Machine/Ops.lean ====
section
/-! DEFINITION. The operations every meaning shares: the arrival of device bytes, the link primitives of
spec/20_memory.md R50 to R53, sequence operations of R9, taking up an operation (R200, R205), its normal end (R152, R200),
and taking an error (spec/60_exceptions.md R199), which is this block's exception entry. There is no return from one (R201):
accepting the next operation clears the error registers, and that is in `accept`. -/

namespace Sys2Proof.Machine

/-- What every meaning answers. -/
abbrev Result := Host.Outcome State Fault Refusal

/-! ### Sequences (R9) -/

/-- `S[a:b]`. -/
def slice (S : Bytes) (a b : Nat) : Bytes := (S.drop a).take (b - a)

/-- `rindex(S, v)`: the greatest `i` with `S[i] = v`, or `none`. -/
def rindex (v : Byte) : Bytes → Option Nat
  | [] => none
  | b :: S =>
    match rindex v S with
    | some i => some (i + 1)
    | none => if b = v then some 0 else none

/-- The least `i` in `q .. q+n-1` with `i + 1 < e`, `S[i] = a`, `S[i+1] = b`. -/
def find2From (S : Bytes) (a b : Byte) (e : Nat) : Nat → Nat → Option Nat
  | _, 0 => none
  | q, n + 1 =>
    if q + 1 < e ∧ S[q]? = some a ∧ S[q + 1]? = some b then some q else find2From S a b e (q + 1) n

/-- `find2(S, a, b, q, e)`: the least `i` with `q ≤ i`, `i + 1 < e`, `S[i] = a` and `S[i+1] = b`, or `none`. -/
def find2 (S : Bytes) (a b : Byte) (q e : Nat) : Option Nat := find2From S a b e q (e - q)

/-! ### The device and the link -/

/-- The device's next bytes join `RXF`, in arrival order (R23, R161). -/
def arrive (s : State) : State :=
  match s.dev with
  | [] => s
  | c :: cs => { s with rxf := s.rxf ++ c, dev := cs }

/-- `LinkWrite(S)` (R50). -/
def linkWrite (S : Bytes) (s : State) : State := { s with txs := s.txs ++ S }

/-- `LinkFlush()` (R51). -/
def linkFlush (s : State) : State := { s with rxf := [] }

/-- `LinkReadFirst()` at the moment it is decided (R52): the front byte of `RXF`, removed; `none` is `timeout`, enabled
only while `RXF` is empty. -/
def linkReadFirst (s : State) : Option Byte × State :=
  match s.rxf with
  | [] => (none, s)
  | v :: rest => (some v, { s with rxf := rest })

/-- `LinkDrain(max)` (R53): up to `max` bytes from the front of `RXF`, removed. -/
def linkDrain (max : Nat) (s : State) : Bytes × State :=
  (s.rxf.take max, { s with rxf := s.rxf.drop max })

/-! ### Taking up an operation and ending it -/

/-- Acceptance of the operation with select code `op` (R25, R200): `BUSY`, `OPSEL`, the error registers and the result
buffers cleared. -/
def accept (op : OpSel) (s : State) : State :=
  { s with busy := true, opsel := op, err := {}, out0 := {}, out1 := {}, out2 := {} }

/-- The normal end of an operation (R152, R200). -/
def complete (s : State) : State := { s with busy := false, tstate := .idle }

/-- The error registers an error writes (R192 to R195, R199 (2)): what does not belong to its kind is 0 or empty. -/
def errRegs (op : OpSel) : Err → ErrRegs
  | .timeout => { kind := .transportTimeout, op := op }
  | .framing offset raw => { kind := .framingError, op := op, offset := offset, raw := raw }
  | .deviceStatus status arg => { kind := .deviceStatusError, op := op, status := status, arg := arg }
  | .precondition arg => { kind := .encodingPrecondition, op := op, arg := arg }

/-- Error entry (R199): the error registers written, `ERR_OP` from `OPSEL`; no partial result; `TSTATE` to `S_IDLE`;
`BUSY` to 0. Everything else stays, `MSTEP` among it. -/
def raise (e : Err) (s : State) : State :=
  { s with err := errRegs s.opsel e, out0 := {}, out1 := {}, out2 := {}, tstate := .idle, busy := false }

/-- The operation that raised `e` ends there. -/
def raised (e : Err) (s : State) : Result := .next (raise e s)

/-- A request is taken up when the block is constructed and not busy and its result would fit (R205); otherwise it has no
effect at all, and the block goes on (R205, R80, program P6 step 6 of spec/95_test_vectors.md). -/
def start (op : OpSel) (fits : Bool) (s : State) (body : State → Result) : Result :=
  if s.linkOpen && !s.busy && fits then body (accept op s) else .next s

/-- `CHECK(op, status, arg)` (R167) on the response registers. -/
def check (arg : Byte) (s : State) (k : State → Result) : Result :=
  if s.rsp.status = s.cfg.stOK then k s else raised (.deviceStatus s.rsp.status arg) s

/-! ### The host's side -/

/-- The host fills an operand buffer (R20). An operand longer than `BUF_MAX` cannot be presented (R205), and a block that
is torn down has no buffers (R211): then nothing happens. -/
def loadOperand (k : Fin 3) (bytes : Bytes) (present : Bool) (s : State) : State :=
  if s.linkOpen && s.cfg.fits bytes.length then
    match k with
    | 0 => { s with in0 := ⟨bytes, present⟩ }
    | 1 => { s with in1 := ⟨bytes, present⟩ }
    | 2 => { s with in2 := ⟨bytes, present⟩ }
  else s

/-- A while in which the host does nothing: what the device sends joins `RXF` (R161); a closed link receives nothing. -/
def idleStep (s : State) : State :=
  if s.linkOpen then arrive s else { s with dev := s.dev.tail }

/-- The reset event (R216, R218): the state of R33, from any state; the other agents' plans stay theirs. It comes
between two steps, so never while `BUSY = 1` (notes/assumptions/13.md). -/
def resetBlock (rx : Bytes) (s : State) : State :=
  { State.resetWith s.cfg rx with host := s.host, dev := s.dev, draws := s.draws }

/-- Teardown (R218): the link is closed and all state is lost. -/
def teardown (s : State) : State :=
  { State.resetWith s.cfg [] with host := s.host, dev := s.dev, draws := s.draws, linkOpen := false }

end Sys2Proof.Machine
end

