-- ==== Sys2Proof/Machine/Operands.lean ====
section
/-! DEFINITION. The operand forms: the read-only tables `PAR` and `REV` (spec/10_state.md R13, R14), the code lookup and the
width-`w` reversal of spec/40_packer.md R87 and R90, the parity-coded unit (spec/30_encoding.md R62), the per-track
parameters `TRACK_CFG` (R28), optional strips and the erase mask. -/

namespace Sys2Proof.Machine

/-- `PAR`, index 0 first, eight entries a row as R13 lists them (1 is `true`). -/
def parTable : List Bool :=
  [true, false, false, true, false, true, true, false] ++
  [false, true, true, false, true, false, false, true] ++
  [false, true, true, false, true, false, false, true] ++
  [true, false, false, true, false, true, true, false] ++
  [false, true, true, false, true, false, false, true] ++
  [true, false, false, true, false, true, true, false] ++
  [true, false, false, true, false, true, true, false] ++
  [false, true, true, false, true, false, false, true]

/-- `REV`, index 0 first, eight entries a row as R14 lists them. -/
def revTable : List Code :=
  [0, 32, 16, 48, 8, 40, 24, 56] ++
  [4, 36, 20, 52, 12, 44, 28, 60] ++
  [2, 34, 18, 50, 10, 42, 26, 58] ++
  [6, 38, 22, 54, 14, 46, 30, 62] ++
  [1, 33, 17, 49, 9, 41, 25, 57] ++
  [5, 37, 21, 53, 13, 45, 29, 61] ++
  [3, 35, 19, 51, 11, 43, 27, 59] ++
  [7, 39, 23, 55, 15, 47, 31, 63]

/-- `PAR[c]` (R13, R88). -/
def par (c : Code) : Bool := parTable.getD c.toNat false

/-- `REV[f]` (R14). -/
def rev (f : Code) : Code := revTable.getD f.toNat 0

/-- `rev_w(f) = REV[f] >> (6 - w)` (R90). -/
def revW (w : Nat) (f : Code) : Code := rev f >>> (6 - w)

/-- `code(A, ch)`: the least `c` with `A[c] = ch`, or 0 when no entry of `A` equals `ch` (R87). -/
def codeOf (A : Bytes) (ch : Byte) : Code := BitVec.ofNat 6 ((A.findIdx? (· == ch)).getD 0)

/-- `A[c]`. Under R91's preconditions `c` is in range (R233). -/
def charOf (A : Bytes) (c : Code) : Byte := A.getD c.toNat 0

/-- The unit of a code, `(PAR[c] << w) | c`, at most 7 bits (R62). -/
def unitOf (w : Nat) (c : Code) : BitVec 7 := (if par c then 1 <<< w else 0) ||| c.setWidth 7

/-- The alphabet an alphabet select stands for (R15, R28). -/
def alphabet (c : Config) : AlphaSel → Bytes
  | .t1 => c.alphaT1
  | .t23 => c.alphaT23

/-- An optional strip as it stands in an operand buffer: tag 0 is the operand `none` (R20). -/
def InBuf.strip (b : InBuf) : Option Bytes := if b.present then some b.bytes else none

/-- A byte sequence as a result; a sequence is not `none`, so its tag is 1 (R20; notes/assumptions/6.md). -/
def OutBuf.ofBytes (b : Bytes) : OutBuf := { bytes := b, present := true }

/-- An optional strip as a result: `none` is tag 0 and no bytes (R20, R115). -/
def OutBuf.ofStrip : Option Bytes → OutBuf
  | none => {}
  | some b => OutBuf.ofBytes b

/-- The erase mask: bit 0 = track 1, bit 1 = track 2, bit 2 = track 3, bits 7..3 zero (R176). -/
def eraseMask (t1 t2 t3 : Bool) : Byte :=
  (if t1 then 1 else 0) ||| (if t2 then 2 else 0) ||| (if t3 then 4 else 0)

end Sys2Proof.Machine
end

