-- ==== Sys2Proof/Machine/IsoCodec.lean ====
section
/-! DEFINITION. The ISO track-datablock encoder and decoder (spec/41_iso_codec.md) and the meanings of ISOENC and ISODEC. -/

namespace Sys2Proof.Machine

/-- `ISOENC(s1, s2, s3)` (R113). -/
def isoEncode (c : Config) (s1 s2 s3 : Bytes) : Bytes :=
  [c.esc, c.chS, c.esc, 0x01] ++ s1 ++ [c.esc, 0x02] ++ s2 ++ [c.esc, 0x03] ++ s3 ++ [c.chQM, c.fs]

/-- A decoded segment `B[a:b]`: a zero-length one is `none` (R116, R118). -/
def optSlice (B : Bytes) (a b : Nat) : Option Bytes := if b = a then none else some (slice B a b)

/-- The index of the first of the bytes `H` that `B` does not hold at `i`, `i + 1`, ... (check 2 of R116). -/
def firstMismatch (B : Bytes) : Nat → Bytes → Option Nat
  | _, [] => none
  | i, h :: H => if B[i]? = some h then firstMismatch B (i + 1) H else some i

/-- Checks 5 and 6 of R116 and the three strips, after checks 1 to 4. -/
def isoStrips (c : Config) (B : Bytes) : Except Nat (Option Bytes × Option Bytes × Option Bytes) :=
  let n := B.length
  match find2 B c.esc 0x02 4 (n - 2) with
  | none => .error 4
  | some e1 =>
    match find2 B c.esc 0x03 (e1 + 2) (n - 2) with
    | none => .error (e1 + 2)
    | some e2 => .ok (optSlice B 4 e1, optSlice B (e1 + 2) e2, optSlice B (e2 + 2) (n - 2))

/-- `ISODEC(B)` (R116): the three optional strips, or the offset of the first failing check (R117). -/
def isoDecode (c : Config) (B : Bytes) : Except Nat (Option Bytes × Option Bytes × Option Bytes) :=
  let n := B.length
  if n < 10 then .error n
  else
    match firstMismatch B 0 [c.esc, c.chS, c.esc, 0x01] with
    | some i => .error i
    | none =>
      if B[n - 2]? ≠ some c.chQM then .error (n - 2)
      else if B[n - 1]? ≠ some c.fs then .error (n - 1)
      else isoStrips c B

/-- ISODEC inside an operation: its three results written to `OUT0..2`, or its `FramingError` with the whole input. -/
def isoDecodeTo (B : Bytes) (s : State) : Result :=
  match isoDecode s.cfg B with
  | .ok (o1, o2, o3) =>
    .next (complete { s with out0 := OutBuf.ofStrip o1, out1 := OutBuf.ofStrip o2, out2 := OutBuf.ofStrip o3 })
  | .error offset => raised (.framing offset B) s

/-- ISOENC's result fits (R205 (c)). -/
def isoencFits (s : State) : Bool :=
  s.cfg.fits (10 + s.in0.bytes.length + s.in1.bytes.length + s.in2.bytes.length)

/-- ISOENC (`OPSEL` 0x03; R112, R113). -/
def execIsoenc (s : State) : Result :=
  start 0x03 (isoencFits s) s fun s =>
    .next (complete { s with out0 := OutBuf.ofBytes (isoEncode s.cfg s.in0.bytes s.in1.bytes s.in2.bytes) })

/-- ISODEC (`OPSEL` 0x04; R115, R116). -/
def execIsodec (s : State) : Result :=
  start 0x04 true s fun s => isoDecodeTo s.in0.bytes s

end Sys2Proof.Machine
end

