-- ==== Sys2Proof/Machine/Flags.lean ====
section
/-! DEFINITION. The flag computations (spec/10_state.md R19, spec/40_packer.md R88, R89, R100, R101): the parity mark of a
position, the LRC flag of a call, and the rendering of marks as text that R5 leaves to two open parameters. -/

namespace Sys2Proof.Machine

/-- The parity mark of a position: the table's parity bit for the decoded code disagrees with the received one (R88). -/
def parityMark (c : Code) (received : Bool) : Bool := par c != received

/-- `lrc_error`: the XOR of all decoded codes is nonzero (R89, R101). -/
def lrcError (lrc : Code) : Bool := lrc != 0

/-- How many positions of the decoded data are returned: up to and with the last nonzero code (R100). -/
def keptLength (lastnz : Option Nat) : Nat :=
  match lastnz with
  | none => 0
  | some j => j + 1

/-- The marks as a marker string (`MARK_ERR`, `MARK_OK`; R5, D10). No operation uses it. -/
def renderMarks (c : Config) (marks : List Bool) : Bytes := marks.map fun m => if m then c.markErr else c.markOk

end Sys2Proof.Machine
end

