-- ==== Sys2Proof/Machine/Packer.lean ====
section
/-! DEFINITION. The symbol packer and unpacker with the parity and LRC units (spec/40_packer.md), working on the registers
`ACC`, `CNT`, `LRC`, `POS`, `LASTNZ` at their widths (spec/10_state.md R16 to R18), and the meanings of PACK and UNPACK. -/

namespace Sys2Proof.Machine

/-- The preconditions of R91. -/
def packerPre (A : Bytes) (w ow : Nat) : Bool :=
  1 ≤ w && w ≤ 6 && 1 ≤ ow && ow ≤ 8 && A.length == 2 ^ w

/-- The low `ow` bits of a byte set: `2^ow - 1`. -/
def lowMask (ow : Nat) : Byte := BitVec.ofNat 8 (2 ^ ow - 1)

/-! ### PACK -/

/-- PACK's registers with the output so far (R93). -/
structure PackRegs where
  acc : BitVec 14 := 0
  cnt : BitVec 4  := 0
  lrc : Code      := 0
  out : Bytes     := []
deriving DecidableEq, Repr

/-- `while CNT >= ow: ...` of `put_unit` (R93); `n` bounds the turns (every turn takes `ow ≥ 1` from `CNT`). -/
def flushGroups (ow : Nat) : Nat → PackRegs → PackRegs
  | 0, r => r
  | n + 1, r =>
    if ow ≤ r.cnt.toNat then
      flushGroups ow n
        { r with out := r.out ++ [r.acc.setWidth 8 &&& lowMask ow]
                 acc := r.acc >>> ow
                 cnt := BitVec.ofNat 4 (r.cnt.toNat - ow) }
    else r

/-- `put_unit(c)` (R93). -/
def putUnit (w ow : Nat) (c : Code) (r : PackRegs) : PackRegs :=
  flushGroups ow 14
    { r with acc := r.acc ||| ((unitOf w c).setWidth 14 <<< r.cnt.toNat)
             cnt := BitVec.ofNat 4 (r.cnt.toNat + w + 1) }

/-- One symbol of PACK's loop (R93). -/
def packSymbol (A : Bytes) (w ow : Nat) (r : PackRegs) (ch : Byte) : PackRegs :=
  putUnit w ow (codeOf A ch) { r with lrc := r.lrc ^^^ codeOf A ch }

/-- The residual byte (R93). -/
def putResidue (r : PackRegs) : PackRegs :=
  if 0 < r.cnt.toNat then { r with out := r.out ++ [r.acc.setWidth 8] } else r

/-- PACK's loop, the LRC unit and the residual byte, from fresh registers (R93). -/
def packRun (A : Bytes) (w ow : Nat) (S : Bytes) : PackRegs :=
  let r := S.foldl (packSymbol A w ow) {}
  putResidue (putUnit w ow r.lrc r)

/-- The number of bytes PACK gives for `m` symbols, `ceil((m+1)*(w+1) / ow)` (R94). -/
def packLength (m w ow : Nat) : Nat := ((m + 1) * (w + 1) + (ow - 1)) / ow

/-- A PACK has ended: its registers are "discarded after" (R16), so that `ACC`, `CNT` and `LRC` hold any value (U24) with
`ACC < 2^CNT` (R16). PACK uses neither `POS` nor `LASTNZ` (R18). -/
def discardPackRegs (s : State) : State :=
  { s with acc := Config.freeAcc s.draws &&& BitVec.ofNat 14 (2 ^ (Config.freeCnt s.draws).val - 1)
           cnt := BitVec.ofNat 4 (Config.freeCnt s.draws).val
           lrc := Config.freeLrc s.draws
           draws := s.draws + 1 }

/-- PACK inside an operation: the packed bytes and the state, or the `EncodingPrecondition` of R91. -/
def pack (A : Bytes) (w ow : Nat) (S : Bytes) (s : State) (k : Bytes → State → Result) : Result :=
  if packerPre A w ow then k (packRun A w ow S).out (discardPackRegs s)
  else raised (.precondition 0) s

/-! ### UNPACK -/

/-- UNPACK's registers with the symbols and marks so far (R99). -/
structure UnpackRegs where
  acc    : BitVec 14  := 0
  cnt    : BitVec 4   := 0
  lrc    : Code       := 0
  pos    : Nat        := 0
  lastnz : Option Nat := none
  sym    : Bytes      := []
  mrk    : List Bool  := []
deriving DecidableEq, Repr

/-- One unit taken from the top of the pending bits and decoded (the body of R99's inner loop). -/
def takeUnit (A : Bytes) (w : Nat) (r : UnpackRegs) : UnpackRegs :=
  let k := r.cnt.toNat - (w + 1)
  let u := r.acc >>> k
  let f := (u >>> 1).setWidth 6
  let c := revW w f
  { acc    := r.acc &&& BitVec.ofNat 14 (2 ^ k - 1)
    cnt    := BitVec.ofNat 4 k
    lrc    := r.lrc ^^^ c
    pos    := r.pos + 1
    lastnz := if c = 0 then r.lastnz else some r.pos
    sym    := r.sym ++ [charOf A c]
    mrk    := r.mrk ++ [parityMark c (u.getLsbD 0)] }

/-- `while CNT >= w + 1: ...` (R99); `n` bounds the turns. -/
def takeUnits (A : Bytes) (w : Nat) : Nat → UnpackRegs → UnpackRegs
  | 0, r => r
  | n + 1, r => if w + 1 ≤ r.cnt.toNat then takeUnits A w n (takeUnit A w r) else r

/-- One input byte: the accumulate step of R98, then the units it completes (R99). -/
def unpackByte (A : Bytes) (w ow : Nat) (r : UnpackRegs) (p : Byte) : UnpackRegs :=
  takeUnits A w 14
    { r with acc := (r.acc <<< ow) ||| (p &&& lowMask ow).setWidth 14
             cnt := BitVec.ofNat 4 (r.cnt.toNat + ow) }

/-- UNPACK's loop from fresh registers (R99). -/
def unpackRun (A : Bytes) (w ow : Nat) (P : Bytes) : UnpackRegs := P.foldl (unpackByte A w ow) {}

/-- The four results of UNPACK (R97, R100, R101). -/
def unpackResult (r : UnpackRegs) : OutBuf where
  bytes   := r.sym.take (keptLength r.lastnz)
  present := true
  marks   := r.mrk.take (keptLength r.lastnz)
  totlen  := r.pos
  lrcErr  := lrcError r.lrc

/-- An UNPACK has ended: as after a PACK, and `POS` and `LASTNZ` hold any value (U24) of `POSW` bits, all ones being `none`
in `LASTNZ` (R18). -/
def discardUnpackRegs (s : State) : State :=
  { discardPackRegs s with
    pos := Config.freePos s.draws % 2 ^ s.cfg.posw
    lastnz := (Config.freeLastnz s.draws).filter (· < 2 ^ s.cfg.posw - 1) }

/-- The number of units UNPACK decodes from `n` bytes, `floor(n*ow / (w+1))` (R100). -/
def unpackLength (n w ow : Nat) : Nat := n * ow / (w + 1)

/-- UNPACK inside an operation. -/
def unpack (A : Bytes) (w ow : Nat) (P : Bytes) (s : State) (k : OutBuf → State → Result) : Result :=
  if packerPre A w ow then k (unpackResult (unpackRun A w ow P)) (discardUnpackRegs s)
  else raised (.precondition 0) s

/-- PACK with a track's `TRACK_CFG` (R175). -/
def packTrack (t : TrackCfg) (S : Bytes) (s : State) (k : Bytes → State → Result) : Result :=
  pack (alphabet s.cfg t.sel) t.codeWidth.toNat t.outputWidth.toNat S s k

/-- UNPACK with a track's `TRACK_CFG` (R173). -/
def unpackTrack (t : TrackCfg) (P : Bytes) (s : State) (k : OutBuf → State → Result) : Result :=
  unpack (alphabet s.cfg t.sel) t.codeWidth.toNat t.outputWidth.toNat P s k

/-! ### The meanings -/

/-- PACK's result fits (R205 (c)); with R91 violated there is no result to fit. -/
def packFits (A : Bytes) (w ow : Nat) (s : State) : Bool :=
  !packerPre A w ow || s.cfg.fits (packLength s.in0.bytes.length w ow)

/-- UNPACK's result fits (R205 (c)). -/
def unpackFits (A : Bytes) (w ow : Nat) (s : State) : Bool :=
  !packerPre A w ow || s.cfg.fits (unpackLength s.in0.bytes.length w ow)

/-- PACK (`OPSEL` 0x01; R92, R93). -/
def execPack (A : Bytes) (w ow : Nat) (s : State) : Result :=
  start 0x01 (packFits A w ow s) s fun s =>
    pack A w ow s.in0.bytes s fun P s => .next (complete { s with out0 := OutBuf.ofBytes P })

/-- UNPACK (`OPSEL` 0x02; R97, R99). -/
def execUnpack (A : Bytes) (w ow : Nat) (s : State) : Result :=
  start 0x02 (unpackFits A w ow s) s fun s =>
    unpack A w ow s.in0.bytes s fun o s => .next (complete { s with out0 := o })

end Sys2Proof.Machine
end

