-- ==== Sys2Proof/Machine/RawCodec.lean ====
section
/-! DEFINITION. The raw track-datablock encoder and decoder (spec/42_raw_codec.md) and the meanings of RAWENC and RAWDEC. -/

namespace Sys2Proof.Machine

/-- The segment of a strip: marker `ESC k`, one length byte, the strip; nothing for an empty strip (R129). -/
def rawSegment (c : Config) (k : Byte) (p : Bytes) : Bytes :=
  if p.length = 0 then [] else [c.esc, k, BitVec.ofNat 8 p.length] ++ p

/-- The number of the first strip longer than 255 bytes (R128). -/
def firstTooLong (p1 p2 p3 : Bytes) : Option Byte :=
  if 255 < p1.length then some 1
  else if 255 < p2.length then some 2
  else if 255 < p3.length then some 3
  else none

/-- `RAWENC(p1, p2, p3)` (R129): the datablock, or the number of the first strip that has no encoding. -/
def rawEncode (c : Config) (p1 p2 p3 : Bytes) : Except Byte Bytes :=
  match firstTooLong p1 p2 p3 with
  | some k => .error k
  | none =>
    .ok ([c.esc, c.chS] ++ rawSegment c 0x01 p1 ++ rawSegment c 0x02 p2 ++ rawSegment c 0x03 p3 ++ [c.chQM, c.fs])

/-- `expect(i, v)` of R132: the index when `B` does not hold `v` there. -/
def expectByte (B : Bytes) (i : Nat) (v : Byte) : Except Nat Unit :=
  if B[i]? = some v then .ok () else .error i

/-- Segment `k` of R132 at offset `q`: its strip and the offset after it. -/
def rawDecodeSegment (c : Config) (B : Bytes) (k : Byte) (q : Nat) : Except Nat (Bytes × Nat) := do
  expectByte B q c.esc
  expectByte B (q + 1) k
  match B[q + 2]? with
  | none => .error (q + 2)
  | some len =>
    if B.length < q + 3 + len.toNat then .error B.length
    else .ok (slice B (q + 3) (q + 3 + len.toNat), q + 3 + len.toNat)

/-- `RAWDEC(B)` (R132): the three strips, or the offset of the first failing check. Bytes after the trailer are ignored
(R133). -/
def rawDecode (c : Config) (B : Bytes) : Except Nat (Bytes × Bytes × Bytes) := do
  expectByte B 0 c.esc
  expectByte B 1 c.chS
  let (p1, q1) ← rawDecodeSegment c B 0x01 2
  let (p2, q2) ← rawDecodeSegment c B 0x02 q1
  let (p3, q3) ← rawDecodeSegment c B 0x03 q2
  expectByte B q3 c.chQM
  expectByte B (q3 + 1) c.fs
  .ok (p1, p2, p3)

/-- RAWENC (`OPSEL` 0x05; R127 to R129). Its output is at most 778 bytes, so it always fits (R205). -/
def execRawenc (s : State) : Result :=
  start 0x05 true s fun s =>
    match rawEncode s.cfg s.in0.bytes s.in1.bytes s.in2.bytes with
    | .ok B => .next (complete { s with out0 := OutBuf.ofBytes B })
    | .error k => raised (.precondition k) s

/-- RAWDEC (`OPSEL` 0x06; R131, R132). All three results have tag 1. -/
def execRawdec (s : State) : Result :=
  start 0x06 true s fun s =>
    match rawDecode s.cfg s.in0.bytes with
    | .ok (p1, p2, p3) =>
      .next (complete { s with out0 := OutBuf.ofBytes p1, out1 := OutBuf.ofBytes p2, out2 := OutBuf.ofBytes p3 })
    | .error offset => raised (.framing offset s.in0.bytes) s

end Sys2Proof.Machine
end

