-- ==== Sys2Proof/Machine/Transport.lean ====
section
/-! DEFINITION. The escape-sequence framer and the command/response transport FSM (spec/43_transport.md), one definition
per row of R145's transition table, and the meanings of SEND, SENDWAIT and PARSE. Between any two transitions the device
may append bytes to `RXF` (R145, R161): each transition is taken after one `arrive`. Time is not modelled (R234): a wait
ends, and at `S_WAIT_FIRST` the device has or has not sent a byte before `TMR` expires. -/

namespace Sys2Proof.Machine

/-- `FRAME(C) = [ESC] ++ C` (R141). -/
def frame (c : Config) (C : Bytes) : Bytes := c.esc :: C

/-- `PARSE(B)` (R157): the response, or `none` where R158 raises `FramingError(len(B), B)`. -/
def parseResponse (c : Config) (B : Bytes) : Option Response :=
  match rindex c.esc B with
  | none => none
  | some p =>
    match B.drop (p + 1) with
    | [] => none
    | status :: imm => some ⟨status, imm, B.take p⟩

/-! ### The transitions of R145 -/

/-- `S_IDLE` to `S_FLUSH`: a transaction begins with `RXBUF` empty (R146). -/
def enterTransaction (s : State) : State := { s with rxbuf := [], tstate := .flush }

/-- `S_FLUSH` to `S_TX` (R146). -/
def doFlush (s : State) : State := { linkFlush s with tstate := .tx }

/-- `S_TX` to `S_SETTLE_TX`: the frame is written whole, `TMR` loaded with `T_SETTLE_TX` (R147). -/
def doTx (C : Bytes) (s : State) : State :=
  { linkWrite (frame s.cfg C) s with tstate := .settleTx, tmr := s.cfg.tSettleTx }

/-- `S_SETTLE_TX` to `S_WAIT_FIRST`: the wait has ended, `TMR` loaded with the timeout (R147). -/
def doSettleTx (timeout : Nat) (s : State) : State := { s with tstate := .waitFirst, tmr := timeout }

/-- `S_WAIT_FIRST`: the front byte becomes `RXBUF[0]` and `TMR` is loaded with `T_SETTLE_RX` (R148), or `TMR` has run
out with `RXF` empty (R149). -/
def doWaitFirst (s : State) : State :=
  match linkReadFirst s with
  | (some v, s) => { s with rxbuf := [v], tstate := .settleRx, tmr := s.cfg.tSettleRx }
  | (none, s) => { s with tstate := .error, tmr := 0 }

/-- `S_SETTLE_RX` to `S_DRAIN`: the wait has ended (R150). -/
def doSettleRx (s : State) : State := { s with tstate := .drain, tmr := 0 }

/-- `S_DRAIN` to `S_PARSE`: one non-blocking read of up to `DRAIN_MAX` bytes (R150). -/
def doDrain (s : State) : State :=
  match linkDrain s.cfg.drainMax s with
  | (bytes, s) => { s with rxbuf := s.rxbuf ++ bytes, tstate := .parse }

/-- `S_PARSE` to `S_DONE` with the response registers written, or to `S_ERROR` (R151). -/
def doParse (s : State) : State :=
  match parseResponse s.cfg s.rxbuf with
  | some r => { s with rsp := r, tstate := .done }
  | none => { s with tstate := .error }

/-- One transition of the FSM while a transaction with command bytes `C` and timeout `timeout` runs (R145). The two end
states are left by `afterTransaction`. -/
def transition (C : Bytes) (timeout : Nat) (s : State) : State :=
  match s.tstate with
  | .idle => s
  | .flush => doFlush s
  | .tx => doTx C s
  | .settleTx => doSettleTx timeout s
  | .waitFirst => doWaitFirst s
  | .settleRx => doSettleRx s
  | .drain => doDrain s
  | .parse => doParse s
  | .done => s
  | .error => s

/-- The FSM has reached an end state of a transaction. -/
def TState.ended (t : TState) : Bool := t == .done || t == .error

/-- At most `n` transitions, each after one arrival, until the transaction has ended. -/
def runTransport (C : Bytes) (timeout : Nat) : Nat → State → State
  | 0, s => s
  | n + 1, s => if s.tstate.ended then s else runTransport C timeout n (transition C timeout (arrive s))

/-- One transaction: from `S_FLUSH` to an end state takes at most seven transitions (R145, R154 (e)). -/
def transact (C : Bytes) (timeout : Nat) (s : State) : State := runTransport C timeout 7 (enterTransaction s)

/-- The error of a transaction that ended in `S_ERROR`: `TransportTimeout` when no byte was received (R149), else the
`FramingError` of PARSE on `RXBUF` (R151, R158). -/
def transportErr (s : State) : Err :=
  match s.rxbuf with
  | [] => .timeout
  | b :: B => .framing (b :: B).length (b :: B)

/-- What follows a transaction (R152): the operation goes on from `S_DONE`, or raises from `S_ERROR`. -/
def afterTransaction (s : State) (k : State → Result) : Result :=
  match s.tstate with
  | .done => k { s with tstate := .idle }
  | .error => raised (transportErr s) s
  | _ => .fault .transportStuck

/-- SENDWAIT inside an operation (R145, R153). -/
def sendWait (C : Bytes) (timeout : Nat) (s : State) (k : State → Result) : Result :=
  afterTransaction (transact C timeout s) k

/-- SEND inside an operation (R143): `S_TX`, `S_SETTLE_TX`, `S_IDLE`; `RXF` is neither flushed nor read. -/
def sendFrame (C : Bytes) (s : State) : State :=
  let s := doTx C (arrive { s with tstate := .tx })
  let s := arrive s
  { s with tstate := .idle, tmr := 0 }

/-! ### The meanings -/

/-- SEND (`OPSEL` 0x07; R142, R143). -/
def execSend (s : State) : Result :=
  start 0x07 true s fun s => .next (complete (sendFrame s.in0.bytes s))

/-- SENDWAIT (`OPSEL` 0x08; R144, R145). The status is not looked at. -/
def execSendwait (timeout : Nat) (s : State) : Result :=
  start 0x08 true s fun s => sendWait s.in0.bytes timeout s fun s => .next (complete s)

/-- PARSE (`OPSEL` 0x09; R156 to R158). -/
def execParse (s : State) : Result :=
  start 0x09 true s fun s =>
    match parseResponse s.cfg s.in0.bytes with
    | some r => .next (complete { s with rsp := r })
    | none => raised (.framing s.in0.bytes.length s.in0.bytes) s

end Sys2Proof.Machine
end

