-- ==== Sys2Proof/Machine/Commands.lean ====
section
/-! DEFINITION. The command sequencer (spec/44_commands.md): the ten macro-operations, each the expansion R82 and R171 to
R179 give it, over the transport, the codecs and the packer. -/

namespace Sys2Proof.Machine

/-- `SENDWAIT(C, timeout)` and `CHECK` (R167): the common part of the nine macro-operations that await a response. -/
def command (C : Bytes) (timeout : Nat) (arg : Byte) (s : State) (k : State → Result) : Result :=
  sendWait C timeout s fun s => check arg s k

/-- RESET (`OPSEL` 0x10; R171): the device's reset command; nothing of the block is reset. -/
def execReset (s : State) : Result :=
  start 0x10 true s fun s => .next (complete (sendFrame [s.cfg.opcReset] s))

/-- READ_ISO (`OPSEL` 0x11; R172). -/
def execReadIso (s : State) : Result :=
  start 0x11 true s fun s =>
    command [s.cfg.opcReadIso] s.cfg.tLong 0 s fun s => isoDecodeTo s.rsp.data s

/-- READ_RAW (`OPSEL` 0x12; R173). -/
def execReadRaw (s : State) : Result :=
  start 0x12 true s fun s =>
    command [s.cfg.opcReadRaw] s.cfg.tLong 0 s fun s =>
      match rawDecode s.cfg s.rsp.data with
      | .error offset => raised (.framing offset s.rsp.data) s
      | .ok (p1, p2, p3) =>
        unpackTrack s.cfg.track1 p1 s fun o1 s =>
        unpackTrack s.cfg.track2 p2 s fun o2 s =>
        unpackTrack s.cfg.track3 p3 s fun o3 s =>
          .next (complete { s with out0 := o1, out1 := o2, out2 := o3 })

/-- An absent strip is written as an empty segment (R174). -/
def stripOrEmpty (b : InBuf) : Bytes := b.strip.getD []

/-- WRITE_ISO (`OPSEL` 0x13; R174). -/
def execWriteIso (s : State) : Result :=
  start 0x13 true s fun s =>
    let block := isoEncode s.cfg (stripOrEmpty s.in0) (stripOrEmpty s.in1) (stripOrEmpty s.in2)
    command (s.cfg.opcWriteIso :: block) s.cfg.tLong 0 s fun s => .next (complete s)

/-- One track of WRITE_RAW: an absent string is the empty strip, a present one is packed (R175). -/
def packOptional (t : TrackCfg) (x : Option Bytes) (s : State) (k : Bytes → State → Result) : Result :=
  match x with
  | none => k [] s
  | some S => packTrack t S s k

/-- WRITE_RAW (`OPSEL` 0x14; R175). Encoding errors come before anything is written (R168). -/
def execWriteRaw (s : State) : Result :=
  start 0x14 true s fun s =>
    packOptional s.cfg.track1 s.in0.strip s fun p1 s =>
    packOptional s.cfg.track2 s.in1.strip s fun p2 s =>
    packOptional s.cfg.track3 s.in2.strip s fun p3 s =>
      match rawEncode s.cfg p1 p2 p3 with
      | .error k => raised (.precondition k) s
      | .ok block => command (s.cfg.opcWriteRaw :: block) s.cfg.tLong 0 s fun s => .next (complete s)

/-- ERASE (`OPSEL` 0x15; R176). -/
def execErase (t1 t2 t3 : Bool) (s : State) : Result :=
  start 0x15 true s fun s =>
    command [s.cfg.opcErase, eraseMask t1 t2 t3] s.cfg.tLong 0 s fun s => .next (complete s)

/-- SET_HICO (`OPSEL` 0x16; R177). -/
def execSetHico (s : State) : Result :=
  start 0x16 true s fun s => command [s.cfg.opcSetHico] s.cfg.tShort 0 s fun s => .next (complete s)

/-- SET_LOCO (`OPSEL` 0x17; R177). -/
def execSetLoco (s : State) : Result :=
  start 0x17 true s fun s => command [s.cfg.opcSetLoco] s.cfg.tShort 0 s fun s => .next (complete s)

/-- One track of SET_BPI (R178): no mode byte, nothing; a mode byte, one transaction whose failed check names it, then
`MSTEP + 1`. -/
def setBpiTrack (m : Option Byte) (s : State) (k : State → Result) : Result :=
  match m with
  | none => k s
  | some b => command [s.cfg.opcSetBpi, b] s.cfg.tShort b s fun s => k { s with mstep := s.mstep + 1 }

/-- SET_BPI (`OPSEL` 0x18; R178). -/
def execSetBpi (m1 m2 m3 : Option Byte) (s : State) : Result :=
  start 0x18 true s fun s =>
    setBpiTrack m1 { s with mstep := 0 } fun s =>
    setBpiTrack m2 s fun s =>
    setBpiTrack m3 s fun s => .next (complete s)

/-- SET_BPC (`OPSEL` 0x19; R179). `TRACK_CFG` does not follow it. -/
def execSetBpc (b1 b2 b3 : Byte) (s : State) : Result :=
  start 0x19 true s fun s =>
    command [s.cfg.opcSetBpc, b1, b2, b3] s.cfg.tShort 0 s fun s => .next (complete s)

end Sys2Proof.Machine
end

