-- ==== Sys2Proof/Machine/Wire.lean ====
section
/-! DEFINITION. The ten wire commands (spec/30_encoding.md R63 to R65) run by themselves: the transport transaction that
puts the command's frame on the link, SEND where the table of R64 awaits no response and SENDWAIT where it awaits one.
There is no status check and no codec: those are the macro-operations' (R82, R144). The select code is that of SEND or
SENDWAIT (notes/assumptions/4.md). -/

namespace Sys2Proof.Machine

/-- The transaction of a wire command that awaits a response (R64, R145). -/
def wireTransaction (C : Bytes) (timeout : Nat) (s : State) : Result :=
  sendWait C timeout s fun s => .next (complete s)

/-- Wire command reset (R64: no response awaited; R171). -/
def execCmdReset (s : State) : Result :=
  start 0x07 true s fun s => .next (complete (sendFrame [s.cfg.opcReset] s))

/-- Wire command read (ISO) (R64, R172). -/
def execCmdReadIso (s : State) : Result :=
  start 0x08 true s fun s => wireTransaction [s.cfg.opcReadIso] s.cfg.tLong s

/-- Wire command read (raw) (R64, R173). -/
def execCmdReadRaw (s : State) : Result :=
  start 0x08 true s fun s => wireTransaction [s.cfg.opcReadRaw] s.cfg.tLong s

/-- Wire command write (ISO) with its datablock (R65, R174). -/
def execCmdWriteIso (block : Bytes) (s : State) : Result :=
  start 0x08 true s fun s => wireTransaction (s.cfg.opcWriteIso :: block) s.cfg.tLong s

/-- Wire command write (raw) with its datablock (R65, R175). -/
def execCmdWriteRaw (block : Bytes) (s : State) : Result :=
  start 0x08 true s fun s => wireTransaction (s.cfg.opcWriteRaw :: block) s.cfg.tLong s

/-- Wire command erase with its mask byte (R65, R176). -/
def execCmdErase (mask : Byte) (s : State) : Result :=
  start 0x08 true s fun s => wireTransaction [s.cfg.opcErase, mask] s.cfg.tLong s

/-- Wire command set-bits-per-character with its three bytes (R65, R179). -/
def execCmdSetBpc (b1 b2 b3 : Byte) (s : State) : Result :=
  start 0x08 true s fun s => wireTransaction [s.cfg.opcSetBpc, b1, b2, b3] s.cfg.tShort s

/-- Wire command set-bits-per-inch with its mode byte (R65, R178). -/
def execCmdSetBpi (mode : Byte) (s : State) : Result :=
  start 0x08 true s fun s => wireTransaction [s.cfg.opcSetBpi, mode] s.cfg.tShort s

/-- Wire command set-coercivity high (R64, R177). -/
def execCmdSetHico (s : State) : Result :=
  start 0x08 true s fun s => wireTransaction [s.cfg.opcSetHico] s.cfg.tShort s

/-- Wire command set-coercivity low (R64, R177). -/
def execCmdSetLoco (s : State) : Result :=
  start 0x08 true s fun s => wireTransaction [s.cfg.opcSetLoco] s.cfg.tShort s

end Sys2Proof.Machine
end

