-- ==== Sys2Proof/Machine/Dispatch.lean ====
section
/-! DEFINITION. One arm per constructor of Instr, each one direct call of that operation's meaning. -/

namespace Sys2Proof.Machine

def exec (i : Instr) (s : State) : Host.Outcome State Fault Refusal :=
  match i with
  | .pack A w ow => Sys2Proof.Machine.execPack A w ow s
  | .unpack A w ow => Sys2Proof.Machine.execUnpack A w ow s
  | .isoenc => Sys2Proof.Machine.execIsoenc s
  | .isodec => Sys2Proof.Machine.execIsodec s
  | .rawenc => Sys2Proof.Machine.execRawenc s
  | .rawdec => Sys2Proof.Machine.execRawdec s
  | .send => Sys2Proof.Machine.execSend s
  | .sendwait timeout => Sys2Proof.Machine.execSendwait timeout s
  | .parse => Sys2Proof.Machine.execParse s
  | .reset => Sys2Proof.Machine.execReset s
  | .readIso => Sys2Proof.Machine.execReadIso s
  | .readRaw => Sys2Proof.Machine.execReadRaw s
  | .writeIso => Sys2Proof.Machine.execWriteIso s
  | .writeRaw => Sys2Proof.Machine.execWriteRaw s
  | .erase t1 t2 t3 => Sys2Proof.Machine.execErase t1 t2 t3 s
  | .setHico => Sys2Proof.Machine.execSetHico s
  | .setLoco => Sys2Proof.Machine.execSetLoco s
  | .setBpi m1 m2 m3 => Sys2Proof.Machine.execSetBpi m1 m2 m3 s
  | .setBpc b1 b2 b3 => Sys2Proof.Machine.execSetBpc b1 b2 b3 s
  | .cmdReset => Sys2Proof.Machine.execCmdReset s
  | .cmdReadIso => Sys2Proof.Machine.execCmdReadIso s
  | .cmdReadRaw => Sys2Proof.Machine.execCmdReadRaw s
  | .cmdWriteIso block => Sys2Proof.Machine.execCmdWriteIso block s
  | .cmdWriteRaw block => Sys2Proof.Machine.execCmdWriteRaw block s
  | .cmdErase mask => Sys2Proof.Machine.execCmdErase mask s
  | .cmdSetBpc b1 b2 b3 => Sys2Proof.Machine.execCmdSetBpc b1 b2 b3 s
  | .cmdSetBpi mode => Sys2Proof.Machine.execCmdSetBpi mode s
  | .cmdSetHico => Sys2Proof.Machine.execCmdSetHico s
  | .cmdSetLoco => Sys2Proof.Machine.execCmdSetLoco s

end Sys2Proof.Machine
end

