-- ==== Sys2Proof/Machine/Step.lean ====
section
/-! DEFINITION. One step: the host's next act (spec/43_transport.md R161). The block fetches no instruction (R58): an
operation runs when the host requests it, and a request the decoder refuses has no effect (R80, R205 (b)). -/

namespace Sys2Proof.Machine

/-- A request as the block takes it: decoded and run, or without effect. -/
def takeRequest (r : Request) (s : State) : Host.Outcome State Fault Refusal :=
  match decode s.cfg r with
  | .ok i => exec i s
  | .error _ => .next s

/-- One step. -/
def step (s : State) : Host.Outcome State Fault Refusal :=
  match s.host with
  | [] => .next (idleStep s)
  | a :: rest =>
    let s := { s with host := rest }
    match a with
    | .load k bytes present => .next (loadOperand k bytes present s)
    | .request r => takeRequest r s
    | .idle => .next (idleStep s)
    | .reset rx => .next (resetBlock rx s)
    | .teardown => .next (teardown s)

/-- The host's next act is the request an opcode-table row's bits stand for (notes/assumptions/10.md). -/
def State.withFetchWord (s : State) (nbits w : Nat) : State :=
  match requestOfTableWord s.cfg nbits w with
  | some r => { s with host := .request r :: s.host }
  | none => s

end Sys2Proof.Machine
end

