-- ==== Sys2Proof/Safety.lean ====
section
/-! DEFINITION. What counts as a safe run, and the invariant of the block between two steps: each field cites the rule of
spec/ that states it. -/

namespace Sys2Proof.Machine

/-- The error registers hold one error as its rule records it, everything not of its kind 0 or empty (R191 to R195); an
`EncodingPrecondition` names 0 or a strip 1..3, a `DeviceStatusError` a status other than `ST_OK`. -/
def ErrRegs.wf (c : Config) (e : ErrRegs) : Prop :=
  match e.kind with
  | .none => e = {}
  | .transportTimeout => e = { kind := .transportTimeout, op := e.op }
  | .framingError => e = { kind := .framingError, op := e.op, offset := e.offset, raw := e.raw }
  | .deviceStatusError =>
    e = { kind := .deviceStatusError, op := e.op, status := e.status, arg := e.arg } ∧ e.status ≠ c.stOK
  | .encodingPrecondition => e = { kind := .encodingPrecondition, op := e.op, arg := e.arg } ∧ e.arg.toNat ≤ 3

/-- The result buffers of one track: within `BUF_MAX` (R20), nothing in them when the tag says absent (R20, R115), the
marks none or one per returned character (R97), the count within `BUF_MAX` (R205). -/
structure OutBuf.wf (c : Config) (o : OutBuf) : Prop where
  bytes_fit : o.bytes.length ≤ c.bufMax
  absent    : o.present = false → o = {}
  marks_len : o.marks = [] ∨ o.marks.length = o.bytes.length
  totlen_fit : o.totlen ≤ c.bufMax

/-- The three result buffers are cleared. -/
def State.resultsCleared (s : State) : Prop := s.out0 = {} ∧ s.out1 = {} ∧ s.out2 = {}

/-- The invariant between two steps. -/
structure Inv (s : State) : Prop where
  /-- The parameters satisfy R219 (no operation writes them, R28). -/
  cfg_wf     : s.cfg.wf = true
  /-- No operation is in progress between two steps (R25, R152, R199). -/
  not_busy   : s.busy = false
  /-- The FSM is idle between two operations (R152, R199). -/
  idle       : s.tstate = .idle
  /-- `OPSEL` holds 0 (reset) or the code of an operation, never a reserved code (R80). -/
  opsel_code : s.opsel = 0 ∨ (decodeOp s.opsel {}).isOk = true
  /-- `ACC < 2^CNT` (R16). -/
  acc_lt     : s.acc.toNat < 2 ^ s.cnt.toNat
  /-- `POS` and `LASTNZ` are `POSW` bits wide, all ones being the `none` of `LASTNZ` (R18). -/
  pos_fit    : s.pos < 2 ^ s.cfg.posw
  lastnz_fit : ∀ j, s.lastnz = some j → j < 2 ^ s.cfg.posw - 1
  /-- Operand buffers are within `BUF_MAX` (R20). -/
  in0_fit    : s.in0.bytes.length ≤ s.cfg.bufMax
  in1_fit    : s.in1.bytes.length ≤ s.cfg.bufMax
  in2_fit    : s.in2.bytes.length ≤ s.cfg.bufMax
  /-- Result buffers (R20). -/
  out0_wf    : s.out0.wf s.cfg
  out1_wf    : s.out1.wf s.cfg
  out2_wf    : s.out2.wf s.cfg
  /-- `RXBUF` holds at most `1 + DRAIN_MAX` bytes (R21, R150). -/
  rxbuf_fit  : s.rxbuf.length ≤ 1 + s.cfg.drainMax
  /-- The response registers hold parts of a parsed buffer (R157). -/
  rsp_fit    : s.rsp.imm.length + s.rsp.data.length ≤ s.cfg.bufMax
  /-- The error registers hold no error or one whole record (R191). -/
  err_wf     : s.err.wf s.cfg
  /-- The bytes an error keeps for diagnosis fit a buffer (R193). -/
  raw_fit    : s.err.raw.length ≤ s.cfg.bufMax
  /-- A recorded error names the operation the host started, and no partial result stands beside it (R199, R200). -/
  err_op     : s.err.kind ≠ .none → s.err.op = s.opsel
  err_clean  : s.err.kind ≠ .none → s.resultsCleared

/-- A run of `n` steps from `s` is safe: it stops at no fault and no refusal. -/
def safeFor : Nat → State → Prop
  | 0, _ => True
  | n + 1, s => ∃ t, step s = .next t ∧ safeFor n t

end Sys2Proof.Machine
end

