-- ==== Sys2Proof/Certificates/Slice0/Obligations.lean ====
section
/-! DEFINITION. The statements for the provers, and the words they are said in (namespace Sys2Proof.Spec): the bit streams
of spec/20_memory.md R43 and R44, the datablock layouts of spec/30_encoding.md, what the device's plan delivers in each
window of a transaction, and a response as the cut of a buffer at its last `ESC`. A statement about a next state writes it
as a record update of the state before, so that it says what changes and that nothing else does. -/

namespace Sys2Proof.Spec
open Sys2Proof.Machine

/-! ### Taking up an operation -/

/-- The block is constructed and not busy (R205 (a), R211). -/
def ready (s : State) : Prop := s.linkOpen = true ∧ s.busy = false

/-- The packer's preconditions (R91). -/
def pre (A : Bytes) (w ow : Nat) : Prop := 1 ≤ w ∧ w ≤ 6 ∧ 1 ≤ ow ∧ ow ≤ 8 ∧ A.length = 2 ^ w

/-- The result of `i` fits `BUF_MAX`, where R205 (c) asks for it. A call outside the packer's preconditions has no result to
fit (notes/assumptions/5.md). -/
def resultFits (s : State) : Instr → Prop
  | .pack A w ow => pre A w ow → ((s.in0.bytes.length + 1) * (w + 1) + (ow - 1)) / ow ≤ s.cfg.bufMax
  | .unpack A w ow => pre A w ow → s.in0.bytes.length * ow / (w + 1) ≤ s.cfg.bufMax
  | .isoenc => 10 + s.in0.bytes.length + s.in1.bytes.length + s.in2.bytes.length ≤ s.cfg.bufMax
  | .isodec => True
  | .rawenc => True
  | .rawdec => True
  | .send => True
  | .sendwait _ => True
  | .parse => True
  | .reset => True
  | .readIso => True
  | .readRaw => True
  | .writeIso => True
  | .writeRaw => True
  | .erase _ _ _ => True
  | .setHico => True
  | .setLoco => True
  | .setBpi _ _ _ => True
  | .setBpc _ _ _ => True
  | .cmdReset => True
  | .cmdReadIso => True
  | .cmdReadRaw => True
  | .cmdWriteIso _ => True
  | .cmdWriteRaw _ => True
  | .cmdErase _ => True
  | .cmdSetBpc _ _ _ => True
  | .cmdSetBpi _ => True
  | .cmdSetHico => True
  | .cmdSetLoco => True

/-- A request for `i` is taken up (R205). -/
def taken (i : Instr) (s : State) : Prop := ready s ∧ resultFits s i

/-- What `OPSEL` holds while an operation runs (R79); a wire command runs as SEND or SENDWAIT (notes/assumptions/4.md). -/
def selectCode : Instr → OpSel
  | .pack _ _ _ => 0x01
  | .unpack _ _ _ => 0x02
  | .isoenc => 0x03
  | .isodec => 0x04
  | .rawenc => 0x05
  | .rawdec => 0x06
  | .send => 0x07
  | .sendwait _ => 0x08
  | .parse => 0x09
  | .reset => 0x10
  | .readIso => 0x11
  | .readRaw => 0x12
  | .writeIso => 0x13
  | .writeRaw => 0x14
  | .erase _ _ _ => 0x15
  | .setHico => 0x16
  | .setLoco => 0x17
  | .setBpi _ _ _ => 0x18
  | .setBpc _ _ _ => 0x19
  | .cmdReset => 0x07
  | .cmdReadIso => 0x08
  | .cmdReadRaw => 0x08
  | .cmdWriteIso _ => 0x08
  | .cmdWriteRaw _ => 0x08
  | .cmdErase _ => 0x08
  | .cmdSetBpc _ _ _ => 0x08
  | .cmdSetBpi _ => 0x08
  | .cmdSetHico => 0x08
  | .cmdSetLoco => 0x08

/-- What acceptance and the end of every operation do, whatever the operation (R25, R152, R200). -/
def ended (op : OpSel) (s : State) : State :=
  { s with opsel := op, err := {}, out0 := {}, out1 := {}, out2 := {}, busy := false, tstate := .idle }

/-- The operation `op` did nothing but end in `FramingError(offset, B)` (R193, R199). -/
def framed (op : OpSel) (offset : Nat) (B : Bytes) (s : State) : State :=
  { ended op s with err := { kind := .framingError, op := op, offset := offset, raw := B } }

/-! ### Codes and bit streams -/

/-- The number of 1 bits of a code. -/
def popcount (c : Code) : Nat := ((List.range 6).filter c.getLsbD).length

/-- The code of a character: its first index in the alphabet, or 0 (R87). -/
def codeIn (A : Bytes) (ch : Byte) : Code := if ch ∈ A then BitVec.ofNat 6 (A.idxOf ch) else 0

/-- The codes of a symbol string. -/
def codes (A S : Bytes) : List Code := S.map (codeIn A)

/-- The LRC of a code sequence (R89). -/
def lrcOf (cs : List Code) : Code := cs.foldl (· ^^^ ·) 0

/-- The bits of a unit in stream order: code bits from bit 0 up, then the odd-parity bit (R45, R62). -/
def unitBits (w : Nat) (c : Code) : List Bool := (List.range w).map c.getLsbD ++ [decide (popcount c % 2 = 0)]

/-- The packed bit stream of a symbol string: its units, then the LRC unit (R43, R94). -/
def packStream (A : Bytes) (w : Nat) (S : Bytes) : List Bool :=
  (codes A S ++ [lrcOf (codes A S)]).flatMap (unitBits w)

/-- The number whose bits are `l`, least significant first. -/
def lsbFirst : List Bool → Nat
  | [] => 0
  | b :: l => b.toNat + 2 * lsbFirst l

/-- `l` cut into groups of `n` bits, the last one short if need be. -/
def groupsOf (n : Nat) (l : List Bool) : List (List Bool) :=
  (List.range ((l.length + (n - 1)) / n)).map fun j => (l.drop (j * n)).take n

/-- PACK's output by its bit stream: each group fills a byte from bit 0 up (R43, R47, R74). -/
def packed (A : Bytes) (w ow : Nat) (S : Bytes) : Bytes :=
  (groupsOf ow (packStream A w S)).map fun g => BitVec.ofNat 8 (lsbFirst g)

/-- The stream of `ow`-bit groups read from bit 0 up: `b(k)` of R43. -/
def lowStream (ow : Nat) (P : Bytes) : List Bool := P.flatMap fun b => (List.range ow).map b.getLsbD

/-- The stream of `ow`-bit groups read from bit `ow-1` down: `u(k)` of R44. -/
def highStream (ow : Nat) (P : Bytes) : List Bool :=
  P.flatMap fun b => (List.range ow).map fun i => b.getLsbD (ow - 1 - i)

/-- The whole units of a stream, `w+1` bits each; bits left over are dropped (R47). -/
def units (w : Nat) (l : List Bool) : List (List Bool) :=
  (List.range (l.length / (w + 1))).map fun i => (l.drop (i * (w + 1))).take (w + 1)

/-- The code of a received unit: its first `w` bits, least significant first (R44). -/
def unitCode (w : Nat) (u : List Bool) : Code := BitVec.ofNat 6 (lsbFirst (u.take w))

/-- The mark of a received unit: it has an even number of 1 bits (R101). -/
def unitMark (u : List Bool) : Bool := u.count true % 2 == 0

/-- How many codes are left when the trailing zero codes are cut (R100). -/
def keptLen (cs : List Code) : Nat := (cs.reverse.dropWhile (· == 0)).length

/-- The codes UNPACK decodes, by the bit stream (R44). -/
def unpackCodes (w ow : Nat) (P : Bytes) : List Code := (units w (highStream ow P)).map (unitCode w)

/-- UNPACK's marks before truncation (R101). -/
def unpackMarks (w ow : Nat) (P : Bytes) : List Bool := (units w (highStream ow P)).map unitMark

/-- UNPACK's four results by the bit stream (R44, R97, R100, R101). -/
def unpacked (A : Bytes) (w ow : Nat) (P : Bytes) : OutBuf where
  bytes   := ((unpackCodes w ow P).take (keptLen (unpackCodes w ow P))).map fun c => A.getD c.toNat 0
  present := true
  marks   := (unpackMarks w ow P).take (keptLen (unpackCodes w ow P))
  totlen  := P.length * ow / (w + 1)
  lrcErr  := lrcOf (unpackCodes w ow P) != 0

/-- `brev(ow, P)`: each `ow`-bit group reversed, bits `7..ow` zero (R45). The block has no such unit. -/
def brev (ow : Nat) (P : Bytes) : Bytes :=
  P.map fun b => BitVec.ofNat 8 (lsbFirst ((List.range ow).map fun i => b.getLsbD (ow - 1 - i)))

/-- Stream bit `n` of `highStream` flipped. -/
def flipBit (ow n : Nat) (Q : Bytes) : Bytes :=
  Q.modify (n / ow) fun b => b ^^^ BitVec.ofNat 8 (2 ^ (ow - 1 - n % ow))

/-! ### Datablocks and responses -/

/-- The ISO datablock of three strips (R69). -/
def isoBlock (c : Config) (s1 s2 s3 : Bytes) : Bytes :=
  c.esc :: c.chS :: c.esc :: 0x01 :: (s1 ++ c.esc :: 0x02 :: (s2 ++ c.esc :: 0x03 :: (s3 ++ [c.chQM, c.fs])))

/-- `opt(s)` of R120. -/
def opt (s : Bytes) : Option Bytes := if s = [] then none else some s

/-- The result buffer of an optional strip: absent, or the bytes with tag 1 (R20, R115). -/
def strip (o : Option Bytes) : OutBuf :=
  match o with
  | none => {}
  | some b => { bytes := b, present := true }

/-- The two-byte marker `ESC k` stands at index `i` (R69, R72). -/
def markerAt (c : Config) (B : Bytes) (k : Byte) (i : Nat) : Prop := B[i]? = some c.esc ∧ B[i + 1]? = some k

/-- The segment of a raw datablock with its marker and length byte, whatever the strip (R72). -/
def rawSeg (c : Config) (k : Byte) (p : Bytes) : Bytes := c.esc :: k :: BitVec.ofNat 8 p.length :: p

/-- A raw datablock up to and with the segments of the strips `ps`, numbered from 1 (R72). -/
def rawPrefix (c : Config) (ps : List Bytes) : Bytes :=
  c.esc :: c.chS :: (ps.zipIdx 1).flatMap fun p => rawSeg c (BitVec.ofNat 8 p.2) p.1

/-- The raw datablock with all three segments (R72), as the decoder expects it. -/
def rawFull (c : Config) (p1 p2 p3 : Bytes) : Bytes := rawPrefix c [p1, p2, p3] ++ [c.chQM, c.fs]

/-- The raw datablock as the encoder emits it: an empty strip has no segment (R73). -/
def rawBlock (c : Config) (p1 p2 p3 : Bytes) : Bytes :=
  [c.esc, c.chS] ++ (if p1 = [] then [] else rawSeg c 0x01 p1) ++ (if p2 = [] then [] else rawSeg c 0x02 p2) ++
    (if p3 = [] then [] else rawSeg c 0x03 p3) ++ [c.chQM, c.fs]

/-- `B` is the response `r`: `data`, the last `ESC`, the status, the immediate result (R66). -/
def isResponse (c : Config) (B : Bytes) (r : Response) : Prop :=
  B = r.data ++ c.esc :: r.status :: r.imm ∧ c.esc ∉ r.status :: r.imm

/-- `B` is no response: it has no `ESC`, or ends in one (R158). -/
def noResponse (c : Config) (B : Bytes) : Prop := c.esc ∉ B ∨ ∃ X, B = X ++ [c.esc]

/-! ### What the device's plan delivers to one transaction -/

/-- What the device sends before the `k`-th transition from here (R145, R161; the plan is notes/assumptions/8.md). -/
def arrival (s : State) (k : Nat) : Bytes := s.dev.getD k []

/-- What arrives after the flush and before `TMR` expires in `S_WAIT_FIRST` (R148, R149). -/
def early (s : State) : Bytes := arrival s 1 ++ arrival s 2 ++ arrival s 3

/-- What has arrived when the drain executes (R150). -/
def received (s : State) : Bytes := early s ++ arrival s 4 ++ arrival s 5

/-- What the transaction accumulates: the first byte and up to `DRAIN_MAX` more (R150). -/
def accumulated (s : State) : Bytes := (received s).take (1 + s.cfg.drainMax)

/-- What is left in `RXF`: the excess and what arrives after the drain (R152, R224). -/
def late (s : State) : Bytes := (received s).drop (1 + s.cfg.drainMax) ++ arrival s 6

/-- After a transaction with command bytes `C` in which nothing arrived in time. `TMR` has run out (R143, R149;
notes/assumptions/17.md). -/
def silent (C : Bytes) (s : State) : State :=
  { s with txs := s.txs ++ s.cfg.esc :: C, rxf := [], rxbuf := [], tmr := 0, dev := s.dev.drop 4 }

/-- After a transaction with command bytes `C` that received a first byte, before the parse. `TMR` has run out and `RXBUF`
keeps what was accumulated (notes/assumptions/17.md). -/
def heard (C : Bytes) (s : State) : State :=
  { s with txs := s.txs ++ s.cfg.esc :: C, rxf := late s, rxbuf := accumulated s, tmr := 0, dev := s.dev.drop 7 }

/-- SENDWAIT's transaction as the straight-line pseudocode of R153, from the start of the transaction to its end. -/
def straightLine (C : Bytes) (s : State) : State :=
  if early s = [] then { silent C s with tstate := .error }
  else
    match parseResponse s.cfg (accumulated s) with
    | none => { heard C s with tstate := .error }
    | some r => { heard C s with rsp := r, tstate := .done }

/-- The bytes of an optional strip operand: an absent one is written as an empty segment (R174). -/
def presentBytes (b : InBuf) : Bytes := if b.present then b.bytes else []

/-- The erase mask: bit 0 = track 1, bit 1 = track 2, bit 2 = track 3 (R176). -/
def trackMask (t1 t2 t3 : Bool) : Byte := BitVec.ofNat 8 (t1.toNat + 2 * t2.toNat + 4 * t3.toNat)

/-- The operations that are one transaction whose command bytes need no packing, with their select code and command bytes
(R64, R65, R82). The wire commands run as SENDWAIT (notes/assumptions/4.md). -/
def transaction (s : State) : Instr → Option (OpSel × Bytes)
  | .sendwait _ => some (0x08, s.in0.bytes)
  | .readIso => some (0x11, [s.cfg.opcReadIso])
  | .readRaw => some (0x12, [s.cfg.opcReadRaw])
  | .writeIso => some (0x13, s.cfg.opcWriteIso ::
      isoBlock s.cfg (presentBytes s.in0) (presentBytes s.in1) (presentBytes s.in2))
  | .erase t1 t2 t3 => some (0x15, [s.cfg.opcErase, trackMask t1 t2 t3])
  | .setHico => some (0x16, [s.cfg.opcSetHico])
  | .setLoco => some (0x17, [s.cfg.opcSetLoco])
  | .setBpc b1 b2 b3 => some (0x19, [s.cfg.opcSetBpc, b1, b2, b3])
  | .cmdReadIso => some (0x08, [s.cfg.opcReadIso])
  | .cmdReadRaw => some (0x08, [s.cfg.opcReadRaw])
  | .cmdWriteIso block => some (0x08, s.cfg.opcWriteIso :: block)
  | .cmdWriteRaw block => some (0x08, s.cfg.opcWriteRaw :: block)
  | .cmdErase mask => some (0x08, [s.cfg.opcErase, mask])
  | .cmdSetBpc b1 b2 b3 => some (0x08, [s.cfg.opcSetBpc, b1, b2, b3])
  | .cmdSetBpi mode => some (0x08, [s.cfg.opcSetBpi, mode])
  | .cmdSetHico => some (0x08, [s.cfg.opcSetHico])
  | .cmdSetLoco => some (0x08, [s.cfg.opcSetLoco])
  | .pack _ _ _ => none
  | .unpack _ _ _ => none
  | .isoenc => none
  | .isodec => none
  | .rawenc => none
  | .rawdec => none
  | .send => none
  | .parse => none
  | .reset => none
  | .writeRaw => none
  | .setBpi _ _ _ => none
  | .cmdReset => none

/-- The packed strip of an operand of WRITE_RAW: nothing for an absent one (R175). -/
def packedStrip (c : Config) (t : TrackCfg) (b : InBuf) : Bytes :=
  if b.present then packed (alphabet c t.sel) t.codeWidth.toNat t.outputWidth.toNat b.bytes else []

/-- The command bytes of what an operation that is no one of `transaction` writes to the link: SEND's operand, the reset
command, WRITE_RAW's datablock of the packed strips, one command per present mode byte of SET_BPI (R143, R171, R175, R178). -/
def ownCommands (s : State) : Instr → List Bytes
  | .send => [s.in0.bytes]
  | .reset => [[s.cfg.opcReset]]
  | .cmdReset => [[s.cfg.opcReset]]
  | .writeRaw => [s.cfg.opcWriteRaw ::
      rawBlock s.cfg (packedStrip s.cfg s.cfg.track1 s.in0) (packedStrip s.cfg s.cfg.track2 s.in1)
        (packedStrip s.cfg s.cfg.track3 s.in2)]
  | .setBpi m1 m2 m3 => ([m1, m2, m3].filterMap id).map fun m => [s.cfg.opcSetBpi, m]
  | .pack _ _ _ => []
  | .unpack _ _ _ => []
  | .isoenc => []
  | .isodec => []
  | .rawenc => []
  | .rawdec => []
  | .parse => []
  | .sendwait _ => []
  | .readIso => []
  | .readRaw => []
  | .writeIso => []
  | .erase _ _ _ => []
  | .setHico => []
  | .setLoco => []
  | .setBpc _ _ _ => []
  | .cmdReadIso => []
  | .cmdReadRaw => []
  | .cmdWriteIso _ => []
  | .cmdWriteRaw _ => []
  | .cmdErase _ => []
  | .cmdSetBpc _ _ _ => []
  | .cmdSetBpi _ => []
  | .cmdSetHico => []
  | .cmdSetLoco => []

/-- The command bytes an operation writes to the link when no error ends it early, one entry per frame, in order (R180). -/
def commandsOf (s : State) (i : Instr) : List Bytes := (transaction s i).toList.map Prod.snd ++ ownCommands s i

/-- The frames of a list of command bytes, one after another on the link (R141). -/
def framesOf (c : Config) (Cs : List Bytes) : Bytes := Cs.flatMap fun C => c.esc :: C

/-- The state as far as the device's plan goes after `k` transactions that each received a response: each has taken seven
entries (R145; notes/assumptions/8.md). -/
def afterTransactions (k : Nat) (s : State) : State := { s with dev := s.dev.drop (7 * k) }

/-- The result of one track of READ_RAW (R173). -/
def unpackedTrack (c : Config) (t : TrackCfg) (p : Bytes) : OutBuf :=
  unpacked (alphabet c t.sel) t.codeWidth.toNat t.outputWidth.toNat p

/-- The transactions of SET_BPI for the mode bytes that are present, in track order: the first failure ends it (R178). -/
def bpiRun : List Byte → State → State
  | [], s => s
  | m :: ms, s =>
    let C := [s.cfg.opcSetBpi, m]
    if early s = [] then { silent C s with err := { kind := .transportTimeout, op := 0x18 } }
    else
      match parseResponse s.cfg (accumulated s) with
      | none =>
        { heard C s with
            err := { kind := .framingError, op := 0x18, offset := (accumulated s).length, raw := accumulated s } }
      | some r =>
        if r.status = s.cfg.stOK then bpiRun ms { heard C s with rsp := r, mstep := s.mstep + 1 }
        else
          { heard C s with
              rsp := r, err := { kind := .deviceStatusError, op := 0x18, status := r.status, arg := m } }

/-- The error kinds an operation may raise (R180, R191). -/
def mayRaise : Instr → List ErrKind
  | .pack _ _ _ => [.encodingPrecondition]
  | .unpack _ _ _ => [.encodingPrecondition]
  | .isoenc => []
  | .isodec => [.framingError]
  | .rawenc => [.encodingPrecondition]
  | .rawdec => [.framingError]
  | .send => []
  | .sendwait _ => [.transportTimeout, .framingError]
  | .parse => [.framingError]
  | .reset => []
  | .readIso => [.transportTimeout, .framingError, .deviceStatusError]
  | .readRaw => [.transportTimeout, .framingError, .deviceStatusError]
  | .writeIso => [.transportTimeout, .framingError, .deviceStatusError]
  | .writeRaw => [.encodingPrecondition, .transportTimeout, .framingError, .deviceStatusError]
  | .erase _ _ _ => [.transportTimeout, .framingError, .deviceStatusError]
  | .setHico => [.transportTimeout, .framingError, .deviceStatusError]
  | .setLoco => [.transportTimeout, .framingError, .deviceStatusError]
  | .setBpi _ _ _ => [.transportTimeout, .framingError, .deviceStatusError]
  | .setBpc _ _ _ => [.transportTimeout, .framingError, .deviceStatusError]
  | .cmdReset => []
  | .cmdReadIso => [.transportTimeout, .framingError]
  | .cmdReadRaw => [.transportTimeout, .framingError]
  | .cmdWriteIso _ => [.transportTimeout, .framingError]
  | .cmdWriteRaw _ => [.transportTimeout, .framingError]
  | .cmdErase _ => [.transportTimeout, .framingError]
  | .cmdSetBpc _ _ _ => [.transportTimeout, .framingError]
  | .cmdSetBpi _ => [.transportTimeout, .framingError]
  | .cmdSetHico => [.transportTimeout, .framingError]
  | .cmdSetLoco => [.transportTimeout, .framingError]

/-- The pure codec operations and PARSE (R220). -/
def isPure : Instr → Bool
  | .pack _ _ _ => true
  | .unpack _ _ _ => true
  | .isoenc => true
  | .isodec => true
  | .rawenc => true
  | .rawdec => true
  | .send => false
  | .sendwait _ => false
  | .parse => true
  | .reset => false
  | .readIso => false
  | .readRaw => false
  | .writeIso => false
  | .writeRaw => false
  | .erase _ _ _ => false
  | .setHico => false
  | .setLoco => false
  | .setBpi _ _ _ => false
  | .setBpc _ _ _ => false
  | .cmdReset => false
  | .cmdReadIso => false
  | .cmdReadRaw => false
  | .cmdWriteIso _ => false
  | .cmdWriteRaw _ => false
  | .cmdErase _ => false
  | .cmdSetBpc _ _ _ => false
  | .cmdSetBpi _ => false
  | .cmdSetHico => false
  | .cmdSetLoco => false

end Sys2Proof.Spec

open Sys2Proof Sys2Proof.Machine Sys2Proof.Spec

/-! ### Encoding, requests, tables -/

/-- Every operation is decoded from its own encoding, every operand at every value (R63 to R65, R79), for any parameters
whose ten opcodes are distinct (R64). -/
def Obligations.DecodeEncodeRoundTrip : Prop :=
  ∀ (c : Config) (i : Instr), c.opcodes.Nodup → decode c (encode c i) = .ok i

/-- A decoded frame is, byte for byte, the encoding of what it decodes to (R63 to R65); a decoded select code is that of
the operation it decodes to (R79). -/
def Obligations.DecodedRequestIsTheEncoding : Prop :=
  ∀ (c : Config) (i : Instr),
    (∀ f, decode c (.wire f) = .ok i → encode c i = .wire f) ∧
    (∀ op a, decode c (.op op a) = .ok i → op = selectCode i ∧ ∃ a', encode c i = .op op a')

/-- Words of the opcode table decode to the operation of their row (R79, R63, R64). The frames' byte values are the
model's PRESUMED defaults (notes/assumptions/1.md); that byte 0 of a frame stands in bits 15..8 and that a payload byte the
word leaves out reads as zero is notes/assumptions/4.md. -/
def Obligations.DecodeKnownWords : Prop :=
  decodeTableWord 5 0b00011 = some .isoenc ∧ decodeTableWord 5 0b01001 = some .parse ∧
  decodeTableWord 5 0b10111 = some .setLoco ∧ decodeTableWord 5 0b01010 = none ∧
  decodeTableWord 16 0x1B61 = some .cmdReset ∧ decodeTableWord 16 0x1B62 = some (.cmdSetBpi 0) ∧
  decodeTableWord 16 0x1B00 = none

/-- A step whose next host act is a request runs the operation the decoder reads from it, on the state without that act;
a request the decoder refuses changes nothing else. That such a request is a step after which the block goes on is
notes/assumptions/5.md, and that a frame which decodes to no command is one is notes/assumptions/4.md. -/
def Obligations.StepRunsDecodedOperation : Prop :=
  ∀ (s : State) (r : Request) (rest : List HostAct), s.host = .request r :: rest →
    (∀ i, decode s.cfg r = .ok i → step s = exec i { s with host := rest }) ∧
    (∀ e, decode s.cfg r = .error e → step s = .next { s with host := rest })

/-- The step after `withFetchWord` runs exactly the operation those bits stand for, on the state it was given. The block
fetches nothing (R58): that placing a request in front of the host's acts stands for the host making it is
notes/assumptions/10.md, and that a 16-bit word runs as the transaction of its frame is notes/assumptions/4.md. -/
def Obligations.FetchWordRunsNext : Prop :=
  ∀ (s : State) (nbits w : Nat) (r : Request) (i : Instr),
    requestOfTableWord s.cfg nbits w = some r → decode s.cfg r = .ok i → step (s.withFetchWord nbits w) = exec i s

/-- A request with a reserved `OPSEL` value (0x00, 0x0A..0x0F, 0x1A..0x1F) has no effect, and every other value names an
operation (R80). That the block goes on to the host's next act is notes/assumptions/5.md. -/
def Obligations.ReservedOpselHasNoEffect : Prop :=
  ∀ (s : State) (op : OpSel) (a : Scalars) (rest : List HostAct), s.host = .request (.op op a) :: rest →
    (op.toNat = 0x00 ∨ (0x0A ≤ op.toNat ∧ op.toNat ≤ 0x0F) ∨ 0x1A ≤ op.toNat → step s = .next { s with host := rest }) ∧
    (¬ (op.toNat = 0x00 ∨ (0x0A ≤ op.toNat ∧ op.toNat ≤ 0x0F) ∨ 0x1A ≤ op.toNat) →
      ∃ i, decode s.cfg (.op op a) = .ok i ∧ step s = exec i { s with host := rest })

/-- A request that is not taken up (the block closed or busy, or a result that would exceed `BUF_MAX`) has no effect at
all (R205, R211). That the block goes on to the host's next act is notes/assumptions/5.md. -/
def Obligations.RefusedRequestHasNoEffect : Prop :=
  ∀ (i : Instr) (s : State), ¬ taken i s → exec i s = .next s

/-- `PAR` is the odd-parity table: `popcount(c) + PAR[c]` is odd, and so every unit has an odd number of 1 bits; `REV`
reverses six bits and is an involution (R13, R14, R62). -/
def Obligations.ParityAndReversalTables : Prop :=
  (∀ c : Code, (popcount c + (par c).toNat) % 2 = 1) ∧
  (∀ (w : Nat) (c : Code), 1 ≤ w → w ≤ 6 → c.toNat < 2 ^ w →
    (unitOf w c).toNat = 2 ^ w * (par c).toNat + c.toNat) ∧
  (∀ (f : Code) (i : Nat), i < 6 → (rev f).getLsbD i = f.getLsbD (5 - i)) ∧
  (∀ f : Code, rev (rev f) = f)

/-- The width-`w` reversal of R90. -/
def Obligations.WidthReversal : Prop :=
  ∀ (w : Nat) (f : Code), 1 ≤ w → w ≤ 6 → f.toNat < 2 ^ w →
    revW w f = rev f >>> (6 - w) ∧ (∀ i, i < w → (revW w f).getLsbD i = f.getLsbD (w - 1 - i)) ∧ revW 6 f = rev f

/-- The code lookup of R87: the least index that holds the character, or 0 when none does. -/
def Obligations.CodeLookupIsLeastIndex : Prop :=
  ∀ (A : Bytes) (ch : Byte), A.length ≤ 64 →
    (∀ c, A[c]? = some ch → (∀ j, j < c → A[j]? ≠ some ch) → (codeOf A ch).toNat = c) ∧
    (ch ∉ A → codeOf A ch = 0)

/-! ### PACK and UNPACK -/

/-- The accumulator between two steps (R16, R17, R18): `ACC < 2^CNT`; `CNT < ow` after PACK's flush loop and `CNT < w+1`
after UNPACK's extract loop; `LRC < 2^w`; `LASTNZ` is a position below `POS`. -/
def Obligations.AccumulatorStaysBounded : Prop :=
  ∀ (A : Bytes) (w ow : Nat), pre A w ow →
    (∀ S : Bytes, ∃ r, r = S.foldl (packSymbol A w ow) {} ∧
      r.acc.toNat < 2 ^ r.cnt.toNat ∧ r.cnt.toNat < ow ∧ r.lrc.toNat < 2 ^ w) ∧
    (∀ P : Bytes, ∃ r, r = unpackRun A w ow P ∧
      r.acc.toNat < 2 ^ r.cnt.toNat ∧ r.cnt.toNat < w + 1 ∧ r.lrc.toNat < 2 ^ w ∧ ∀ j, r.lastnz = some j → j < r.pos)

/-- PACK completes with the bit stream of its units in `OUT0` (R43, R62, R89, R93), and changes nothing else but the
working registers, whose values after the operation are open (U24; notes/assumptions/9.md), with `ACC < 2^CNT` (R16). -/
def Obligations.PackResult : Prop :=
  ∀ (A : Bytes) (w ow : Nat) (s : State), pre A w ow → taken (.pack A w ow) s →
    ∃ a n l d p, BitVec.toNat a < 2 ^ BitVec.toNat n ∧
      exec (.pack A w ow) s = .next { ended 0x01 s with
        acc := a, cnt := n, lrc := l, draws := d, out0 := { bytes := packed A w ow s.in0.bytes, present := p } }

/-- The shape of PACK's output (R94): its length, its bytes below `2^ow`, its bit stream with fewer than `ow` zero bits of
padding, and that it depends on the operands alone. -/
def Obligations.PackOutputShape : Prop :=
  ∀ (A : Bytes) (w ow : Nat) (s t : State), pre A w ow → taken (.pack A w ow) s → exec (.pack A w ow) s = .next t →
    t.out0.bytes.length = ((s.in0.bytes.length + 1) * (w + 1) + (ow - 1)) / ow ∧
    (∀ b ∈ t.out0.bytes, b.toNat < 2 ^ ow) ∧
    (∃ pad, pad < ow ∧ lowStream ow t.out0.bytes = packStream A w s.in0.bytes ++ List.replicate pad false ∧
      pad = t.out0.bytes.length * ow - (s.in0.bytes.length + 1) * (w + 1)) ∧
    (∀ s' t' : State, taken (.pack A w ow) s' → s'.in0.bytes = s.in0.bytes → exec (.pack A w ow) s' = .next t' →
      t'.out0.bytes = t.out0.bytes)

/-- PACK and UNPACK outside the preconditions of R91 raise `EncodingPrecondition(op, 0)`, write no working register and
give no result; within them they raise nothing. That such a call raises and is not refused, also where R205's size formula
would exceed `BUF_MAX`, is notes/assumptions/5.md. -/
def Obligations.PackerPreconditions : Prop :=
  ∀ (A : Bytes) (w ow : Nat) (s : State), ready s →
    (¬ pre A w ow →
      exec (.pack A w ow) s = .next { ended 0x01 s with err := { kind := .encodingPrecondition, op := 0x01 } } ∧
      exec (.unpack A w ow) s = .next { ended 0x02 s with err := { kind := .encodingPrecondition, op := 0x02 } }) ∧
    (pre A w ow →
      (∀ t, taken (.pack A w ow) s → exec (.pack A w ow) s = .next t → t.err.kind = .none) ∧
      (∀ t, taken (.unpack A w ow) s → exec (.unpack A w ow) s = .next t → t.err.kind = .none))

/-- UNPACK completes with the four results of R97 read from the bit stream of R44 (R99 to R101), and changes nothing else
but the working registers, whose values after the operation are open (U24; notes/assumptions/9.md), with `ACC < 2^CNT`. -/
def Obligations.UnpackResult : Prop :=
  ∀ (A : Bytes) (w ow : Nat) (s : State), pre A w ow → taken (.unpack A w ow) s →
    ∃ a n l q z d p, BitVec.toNat a < 2 ^ BitVec.toNat n ∧
      exec (.unpack A w ow) s = .next { ended 0x02 s with
        acc := a, cnt := n, lrc := l, pos := q, lastnz := z, draws := d,
        out0 := { unpacked A w ow s.in0.bytes with present := p } }

/-- Loopback through the per-group reversal (R104): what UNPACK decodes from `brev(ow, P)`, before and after truncation,
its marks, its count and its LRC flag; the two special cases; and the example that the source's own version is false. -/
def Obligations.LoopbackThroughGroupReversal : Prop :=
  (∀ (A : Bytes) (w ow : Nat) (s t s' : State), pre A w ow → taken (.pack A w ow) s → exec (.pack A w ow) s = .next t →
    taken (.unpack A w ow) s' → s'.in0.bytes = brev ow t.out0.bytes →
    ∃ cs L k r t', cs = codes A s.in0.bytes ∧ L = lrcOf cs ∧
      k = t.out0.bytes.length * ow / (w + 1) - (s.in0.bytes.length + 1) ∧
      r = unpackRun A w ow (brev ow t.out0.bytes) ∧
      r.sym = (cs ++ [L]).map (fun c => A.getD c.toNat 0) ++ List.replicate k (A.getD 0 0) ∧
      r.mrk = List.replicate (s.in0.bytes.length + 1) false ++ List.replicate k true ∧
      exec (.unpack A w ow) s' = .next t' ∧
      t'.out0.totlen = s.in0.bytes.length + 1 + k ∧ t'.out0.lrcErr = false ∧
      t'.out0.bytes = ((cs ++ [L]).take (keptLen (cs ++ [L]))).map (fun c => A.getD c.toNat 0) ∧
      t'.out0.marks = List.replicate (keptLen (cs ++ [L])) false ∧
      ((∀ ch ∈ s.in0.bytes, ch ∈ A) → A.Nodup →
        (L ≠ 0 → t'.out0.bytes = s.in0.bytes ++ [A.getD L.toNat 0]) ∧
        (L = 0 → t'.out0.bytes = (s.in0.bytes.reverse.dropWhile (· == A.getD 0 0)).reverse))) ∧
  (packRun Config.default.alphaT1 6 8 [0x41]).out = [0xE1, 0x30] ∧
  (unpackResult (unpackRun Config.default.alphaT1 6 8 [0xE1, 0x30])).bytes = [0x27, 0x39] ∧
  (unpackResult (unpackRun Config.default.alphaT1 6 8 [0xE1, 0x30])).lrcErr = true

/-- Parity detection (R105): any one flipped bit of a unit `0..m` of a loopback stream marks that unit and no other, and
the mark is in the returned marks when the unit is at or before the last nonzero code. -/
def Obligations.SingleBitFlipIsMarked : Prop :=
  ∀ (A : Bytes) (w ow : Nat) (s t s' : State) (n : Nat), pre A w ow → taken (.pack A w ow) s →
    exec (.pack A w ow) s = .next t → n < (s.in0.bytes.length + 1) * (w + 1) →
    taken (.unpack A w ow) s' → s'.in0.bytes = flipBit ow n (brev ow t.out0.bytes) →
    ∃ r t', r = unpackRun A w ow (flipBit ow n (brev ow t.out0.bytes)) ∧ exec (.unpack A w ow) s' = .next t' ∧
      r.mrk[n / (w + 1)]? = some true ∧
      (∀ i, i ≤ s.in0.bytes.length → i ≠ n / (w + 1) → r.mrk[i]? = some false) ∧
      (∀ j, r.lastnz = some j → n / (w + 1) ≤ j → t'.out0.marks[n / (w + 1)]? = some true)

/-- LRC detection (R106): a flipped code bit of a unit `0..m` sets `lrc_error`, a flipped parity bit does not; and changes
go undetected exactly when every bit column has an even number of changed units. -/
def Obligations.LrcDetectsColumnChanges : Prop :=
  ∀ (A : Bytes) (w ow : Nat) (s t : State), pre A w ow → taken (.pack A w ow) s → exec (.pack A w ow) s = .next t →
    (∀ (n : Nat) (s' : State), n < (s.in0.bytes.length + 1) * (w + 1) →
      taken (.unpack A w ow) s' → s'.in0.bytes = flipBit ow n (brev ow t.out0.bytes) →
      ∃ t', exec (.unpack A w ow) s' = .next t' ∧ t'.out0.lrcErr = decide (n % (w + 1) < w)) ∧
    (∀ s' : State, taken (.unpack A w ow) s' → s'.in0.bytes.length = t.out0.bytes.length →
      ∃ t', exec (.unpack A w ow) s' = .next t' ∧
        (t'.out0.lrcErr = false ↔
          ∀ j, j < w → (((unpackCodes w ow (brev ow t.out0.bytes)).zip (unpackCodes w ow s'.in0.bytes)).countP
            fun p => p.1.getLsbD j != p.2.getLsbD j) % 2 = 0))

/-! ### The datablock codecs -/

/-- ISOENC completes with the datablock of R69 in `OUT0` and changes nothing else (R111 to R113). -/
def Obligations.IsoencResult : Prop :=
  ∀ s : State, taken .isoenc s →
    ∃ p, exec .isoenc s = .next { ended 0x03 s with
        out0 := { bytes := isoBlock s.cfg s.in0.bytes s.in1.bytes s.in2.bytes, present := p } } ∧
      (isoBlock s.cfg s.in0.bytes s.in1.bytes s.in2.bytes).length =
        10 + s.in0.bytes.length + s.in1.bytes.length + s.in2.bytes.length

/-- ISODEC's six checks in order, the offset each failure reports, and the three optional strips when all pass (R116,
R117). -/
def Obligations.IsodecOutcome : Prop :=
  ∀ (s : State) (B : Bytes) (n : Nat), ready s → B = s.in0.bytes → n = B.length →
    (n < 10 → exec .isodec s = .next (framed 0x04 n B s)) ∧
    (10 ≤ n → ∀ i, i < 4 → B.take i = [s.cfg.esc, s.cfg.chS, s.cfg.esc, 0x01].take i →
      B[i]? ≠ [s.cfg.esc, s.cfg.chS, s.cfg.esc, 0x01][i]? → exec .isodec s = .next (framed 0x04 i B s)) ∧
    (10 ≤ n → B.take 4 = [s.cfg.esc, s.cfg.chS, s.cfg.esc, 0x01] →
      (B[n - 2]? ≠ some s.cfg.chQM → exec .isodec s = .next (framed 0x04 (n - 2) B s)) ∧
      (B[n - 2]? = some s.cfg.chQM → B[n - 1]? ≠ some s.cfg.fs →
        exec .isodec s = .next (framed 0x04 (n - 1) B s)) ∧
      (B[n - 2]? = some s.cfg.chQM → B[n - 1]? = some s.cfg.fs →
        ((∀ i, 4 ≤ i → i + 1 < n - 2 → ¬ markerAt s.cfg B 0x02 i) → exec .isodec s = .next (framed 0x04 4 B s)) ∧
        (∀ e1, 4 ≤ e1 → e1 + 1 < n - 2 → markerAt s.cfg B 0x02 e1 →
          (∀ i, 4 ≤ i → i < e1 → ¬ markerAt s.cfg B 0x02 i) →
          ((∀ i, e1 + 2 ≤ i → i + 1 < n - 2 → ¬ markerAt s.cfg B 0x03 i) →
            exec .isodec s = .next (framed 0x04 (e1 + 2) B s)) ∧
          (∀ e2, e1 + 2 ≤ e2 → e2 + 1 < n - 2 → markerAt s.cfg B 0x03 e2 →
            (∀ i, e1 + 2 ≤ i → i < e2 → ¬ markerAt s.cfg B 0x03 i) →
            exec .isodec s = .next { ended 0x04 s with
              out0 := strip (opt ((B.take e1).drop 4)), out1 := strip (opt ((B.take e2).drop (e1 + 2))),
              out2 := strip (opt ((B.take (n - 2)).drop (e2 + 2))) }))))

/-- ISO round trip (R120): ISODEC of a block built by ISOENC from strips free of their end markers gives the strips back,
an empty one as absent. The escape byte is a parameter here; the rule's condition needs it to be none of the track numbers
0x02, 0x03 (the default is 0x1B). -/
def Obligations.IsoRoundTrip : Prop :=
  ∀ s t s' : State, taken .isoenc s → exec .isoenc s = .next t → s.cfg.esc ≠ 0x02 → s.cfg.esc ≠ 0x03 →
    ¬ [s.cfg.esc, 0x02] <:+: s.in0.bytes → ¬ [s.cfg.esc, 0x03] <:+: s.in1.bytes →
    ready s' → s'.cfg = s.cfg → s'.in0.bytes = t.out0.bytes →
    exec .isodec s' = .next { ended 0x04 s' with
      out0 := strip (opt s.in0.bytes), out1 := strip (opt s.in1.bytes), out2 := strip (opt s.in2.bytes) }

/-- RAWENC completes with the datablock of R72 and R73 when no strip is longer than 255 bytes (R129), and raises
`EncodingPrecondition(op, k)` for the first strip that is (R128). -/
def Obligations.RawencOutcome : Prop :=
  ∀ s : State, ready s →
    (s.in0.bytes.length ≤ 255 → s.in1.bytes.length ≤ 255 → s.in2.bytes.length ≤ 255 →
      ∃ p, exec .rawenc s = .next { ended 0x05 s with
          out0 := { bytes := rawBlock s.cfg s.in0.bytes s.in1.bytes s.in2.bytes, present := p } } ∧
        (rawBlock s.cfg s.in0.bytes s.in1.bytes s.in2.bytes).length =
          4 + (([s.in0.bytes, s.in1.bytes, s.in2.bytes].filter (· ≠ [])).map (3 + ·.length)).sum ∧
        (rawBlock s.cfg s.in0.bytes s.in1.bytes s.in2.bytes).length ≤ 778) ∧
    (∀ k : Nat, k < 3 → 255 < ([s.in0.bytes, s.in1.bytes, s.in2.bytes].getD k []).length →
      (∀ j, j < k → ([s.in0.bytes, s.in1.bytes, s.in2.bytes].getD j []).length ≤ 255) →
      exec .rawenc s = .next { ended 0x05 s with
        err := { kind := .encodingPrecondition, op := 0x05, arg := BitVec.ofNat 8 (k + 1) } })

/-- RAWDEC (R132, R133): three segments in order and the trailer give the three strips, whatever follows the trailer; else
the index of the first wrong or missing byte, in the order of the pseudocode. `ps` are the segments already read. -/
def Obligations.RawdecOutcome : Prop :=
  ∀ (s : State) (B : Bytes), ready s → B = s.in0.bytes →
    (∀ p1 p2 p3 junk : Bytes, B = rawFull s.cfg p1 p2 p3 ++ junk →
      p1.length ≤ 255 → p2.length ≤ 255 → p3.length ≤ 255 →
      exec .rawdec s = .next { ended 0x06 s with
        out0 := strip (some p1), out1 := strip (some p2), out2 := strip (some p3) }) ∧
    (B[0]? ≠ some s.cfg.esc → exec .rawdec s = .next (framed 0x06 0 B s)) ∧
    (B[0]? = some s.cfg.esc → B[1]? ≠ some s.cfg.chS → exec .rawdec s = .next (framed 0x06 1 B s)) ∧
    (∀ (ps : List Bytes) (rest : Bytes), B = rawPrefix s.cfg ps ++ rest → (∀ p ∈ ps, p.length ≤ 255) →
      (ps.length < 3 →
        (rest[0]? ≠ some s.cfg.esc → exec .rawdec s = .next (framed 0x06 (rawPrefix s.cfg ps).length B s)) ∧
        (rest[0]? = some s.cfg.esc → rest[1]? ≠ some (BitVec.ofNat 8 (ps.length + 1)) →
          exec .rawdec s = .next (framed 0x06 ((rawPrefix s.cfg ps).length + 1) B s)) ∧
        (rest = [s.cfg.esc, BitVec.ofNat 8 (ps.length + 1)] →
          exec .rawdec s = .next (framed 0x06 ((rawPrefix s.cfg ps).length + 2) B s)) ∧
        (∀ len body, rest = s.cfg.esc :: BitVec.ofNat 8 (ps.length + 1) :: len :: body →
          body.length < BitVec.toNat len → exec .rawdec s = .next (framed 0x06 B.length B s))) ∧
      (ps.length = 3 →
        (rest[0]? ≠ some s.cfg.chQM → exec .rawdec s = .next (framed 0x06 (rawPrefix s.cfg ps).length B s)) ∧
        (rest[0]? = some s.cfg.chQM → rest[1]? ≠ some s.cfg.fs →
          exec .rawdec s = .next (framed 0x06 ((rawPrefix s.cfg ps).length + 1) B s))))

/-- Raw round trip (R135): three strips of 1 to 255 bytes, whatever they hold, come back unchanged. -/
def Obligations.RawRoundTrip : Prop :=
  ∀ s : State, ready s → (∀ p ∈ [s.in0.bytes, s.in1.bytes, s.in2.bytes], 1 ≤ p.length ∧ p.length ≤ 255) →
    ∃ t, exec .rawenc s = .next t ∧
      ∀ s' : State, ready s' → s'.cfg = s.cfg → s'.in0.bytes = t.out0.bytes →
        exec .rawdec s' = .next { ended 0x06 s' with
          out0 := strip (some s.in0.bytes), out1 := strip (some s.in1.bytes), out2 := strip (some s.in2.bytes) }

/-- The raw asymmetry (R136): RAWDEC rejects every block RAWENC makes with an empty strip, and RAWENC of a decoded block
with a zero-length segment is another block. -/
def Obligations.RawEmptyStripAsymmetry : Prop :=
  (∀ s : State, ready s → (∀ p ∈ [s.in0.bytes, s.in1.bytes, s.in2.bytes], p.length ≤ 255) →
    [] ∈ [s.in0.bytes, s.in1.bytes, s.in2.bytes] →
    ∃ t, exec .rawenc s = .next t ∧
      ∀ s' : State, ready s' → s'.cfg = s.cfg → s'.in0.bytes = t.out0.bytes →
        ∃ offset, exec .rawdec s' = .next (framed 0x06 offset t.out0.bytes s')) ∧
  (∀ s t s' : State, ready s → exec .rawdec s = .next t → t.err.kind = .none →
    [] ∈ [t.out0.bytes, t.out1.bytes, t.out2.bytes] → ready s' → s'.cfg = s.cfg →
    s'.in0.bytes = t.out0.bytes → s'.in1.bytes = t.out1.bytes → s'.in2.bytes = t.out2.bytes →
    ∃ t', exec .rawenc s' = .next t' ∧ t'.err.kind = .none ∧ t'.out0.bytes ≠ s.in0.bytes)

/-! ### The transport -/

/-- SEND, RESET and the wire command reset (R141, R143, R171): `ESC` and the command bytes are written; `RXF` is neither
flushed nor read (it only gains what the device's plan sends meanwhile, notes/assumptions/8.md); `TMR` has run to zero
(R143); nothing else changes. That the wire command runs as SEND, with `OPSEL` 0x07, is notes/assumptions/4.md. -/
def Obligations.SendResult : Prop :=
  ∀ (s : State) (i : Instr) (C : Bytes), ready s →
    (i, C) ∈ [(.send, s.in0.bytes), (.reset, [s.cfg.opcReset]), (.cmdReset, [s.cfg.opcReset])] →
    exec i s = .next { ended (selectCode i) s with
      txs := s.txs ++ s.cfg.esc :: C, rxf := s.rxf ++ arrival s 0 ++ arrival s 1, dev := s.dev.drop 2, tmr := 0 }

/-- PARSE, the success path (R157): the buffer is cut at its last `ESC` into `data`, status and immediate result, and
nothing but the response registers is written. -/
def Obligations.ParseSuccess : Prop :=
  ∀ (s : State) (r : Response), ready s → isResponse s.cfg s.in0.bytes r →
    exec .parse s = .next { ended 0x09 s with rsp := r } ∧
    r.data.length + 2 + r.imm.length = s.in0.bytes.length

/-- PARSE, failure (R158): a buffer with no `ESC`, or whose last byte is `ESC`, raises `FramingError(len(B), B)`, the
response registers not written; inside SENDWAIT the buffer is never empty. -/
def Obligations.ParseFailure : Prop :=
  (∀ s : State, ready s → noResponse s.cfg s.in0.bytes →
    exec .parse s = .next (framed 0x09 s.in0.bytes.length s.in0.bytes s)) ∧
  (∀ (s t : State) (timeout : Nat), ready s → exec (.sendwait timeout) s = .next t → t.err.kind = .framingError →
    1 ≤ t.err.raw.length ∧ t.err.offset = t.err.raw.length)

/-- The FSM of R145, run transition by transition with the device's arrivals in between, is the straight-line pseudocode
of R153. -/
def Obligations.FsmIsStraightLine : Prop :=
  ∀ (C : Bytes) (timeout : Nat) (s : State), transact C timeout s = straightLine C s

/-- A transaction whose first byte does not come in time raises `TransportTimeout(op)` (R149, R192): the frame is written,
`RXF` flushed and empty, the response registers kept. For every one-transaction operation but WRITE_RAW. That `OPSEL` and
`ERR_OP` are 0x08 for a wire command is notes/assumptions/4.md; the device's plan is notes/assumptions/8.md. -/
def Obligations.SilentDeviceTimesOut : Prop :=
  ∀ (s : State) (i : Instr) (op : OpSel) (C : Bytes), ready s → transaction s i = some (op, C) → early s = [] →
    exec i s = .next { ended op (silent C s) with err := { kind := .transportTimeout, op := op } }

/-- A transaction whose bytes do not parse raises `FramingError(len(RXBUF), RXBUF)` (R151, R158, R193), the response
registers kept. For every one-transaction operation but WRITE_RAW. That `OPSEL` and `ERR_OP` are 0x08 for a wire command is
notes/assumptions/4.md; the device's plan is notes/assumptions/8.md. -/
def Obligations.UnparsableResponseIsFramingError : Prop :=
  ∀ (s : State) (i : Instr) (op : OpSel) (C : Bytes), ready s → transaction s i = some (op, C) → early s ≠ [] →
    noResponse s.cfg (accumulated s) → exec i s = .next (framed op (accumulated s).length (accumulated s) (heard C s))

/-- A status other than `ST_OK` ends every checked one-transaction operation but WRITE_RAW in
`DeviceStatusError(op, status, 0)`, the response left in the response registers and never decoded (R167, R194, R198). -/
def Obligations.FailureStatusIsDeviceStatusError : Prop :=
  ∀ (s : State) (i : Instr) (op : OpSel) (C : Bytes) (r : Response), ready s → transaction s i = some (op, C) →
    op ≠ 0x08 → early s ≠ [] → isResponse s.cfg (accumulated s) r → r.status ≠ s.cfg.stOK →
    exec i s = .next { ended op (heard C s) with
      rsp := r, err := { kind := .deviceStatusError, op := op, status := r.status } }

/-- SENDWAIT and the nine wire commands that await a response complete with the response, whatever its status (R144,
R151). That a wire command runs as SENDWAIT is notes/assumptions/4.md. -/
def Obligations.SendwaitAndWireCommandsComplete : Prop :=
  ∀ (s : State) (i : Instr) (C : Bytes) (r : Response), ready s → transaction s i = some (0x08, C) → early s ≠ [] →
    isResponse s.cfg (accumulated s) r → exec i s = .next { ended 0x08 (heard C s) with rsp := r }

/-- WRITE_ISO, ERASE, SET_HICO, SET_LOCO and SET_BPC complete when the response's status is `ST_OK` (R174, R176, R177,
R179), having written their frame and nothing else. -/
def Obligations.StatusOperationsComplete : Prop :=
  ∀ (s : State) (i : Instr) (op : OpSel) (C : Bytes) (r : Response), ready s → transaction s i = some (op, C) →
    op ∈ [(0x13 : OpSel), 0x15, 0x16, 0x17, 0x19] → early s ≠ [] → isResponse s.cfg (accumulated s) r →
    r.status = s.cfg.stOK → exec i s = .next { ended op (heard C s) with rsp := r }

/-! ### The macro-operations -/

/-- READ_ISO completes with the strips of the ISO datablock in the response's data (R172). -/
def Obligations.ReadIsoCompletes : Prop :=
  ∀ (s : State) (r : Response) (s1 s2 s3 : Bytes), ready s → early s ≠ [] → isResponse s.cfg (accumulated s) r →
    r.status = s.cfg.stOK → r.data = isoBlock s.cfg s1 s2 s3 → s.cfg.esc ≠ 0x02 → s.cfg.esc ≠ 0x03 →
    ¬ [s.cfg.esc, 0x02] <:+: s1 → ¬ [s.cfg.esc, 0x03] <:+: s2 →
    exec .readIso s = .next { ended 0x11 (heard [s.cfg.opcReadIso] s) with
      rsp := r, out0 := strip (opt s1), out1 := strip (opt s2), out2 := strip (opt s3) }

/-- READ_RAW completes with each track's strip unpacked with `TRACK_CFG`, all three tags 1 (R173); the working registers'
values after it are open (U24; notes/assumptions/9.md). -/
def Obligations.ReadRawCompletes : Prop :=
  ∀ (s : State) (r : Response) (p1 p2 p3 junk : Bytes), ready s → s.cfg.wf = true → early s ≠ [] →
    isResponse s.cfg (accumulated s) r → r.status = s.cfg.stOK → r.data = rawFull s.cfg p1 p2 p3 ++ junk →
    p1.length ≤ 255 → p2.length ≤ 255 → p3.length ≤ 255 →
    ∃ a n l q z d, BitVec.toNat a < 2 ^ BitVec.toNat n ∧
      exec .readRaw s = .next { ended 0x12 (heard [s.cfg.opcReadRaw] s) with
        rsp := r, acc := a, cnt := n, lrc := l, pos := q, lastnz := z, draws := d,
        out0 := unpackedTrack s.cfg s.cfg.track1 p1, out1 := unpackedTrack s.cfg s.cfg.track2 p2,
        out2 := unpackedTrack s.cfg s.cfg.track3 p3 }

/-- The reads have no behaviour beyond their expansion (R82, R168, R193): READ_ISO ends as ISODEC of the response's data
does, strips or error, and READ_RAW fails as RAWDEC of it does, the error naming the read. -/
def Obligations.ReadsDecodeTheResponseData : Prop :=
  ∀ (s d t : State) (r : Response), ready s → early s ≠ [] → isResponse s.cfg (accumulated s) r →
    r.status = s.cfg.stOK → ready d → d.cfg = s.cfg → d.in0.bytes = r.data →
    (exec .isodec d = .next t → t.err.kind = .none →
      exec .readIso s = .next { ended 0x11 (heard [s.cfg.opcReadIso] s) with
        rsp := r, out0 := t.out0, out1 := t.out1, out2 := t.out2 }) ∧
    (exec .isodec d = .next t → t.err.kind ≠ .none →
      exec .readIso s = .next { ended 0x11 (heard [s.cfg.opcReadIso] s) with
        rsp := r, err := { t.err with op := 0x11 } }) ∧
    (exec .rawdec d = .next t → t.err.kind ≠ .none →
      exec .readRaw s = .next { ended 0x12 (heard [s.cfg.opcReadRaw] s) with
        rsp := r, err := { t.err with op := 0x12 } })

/-- WRITE_RAW whose packed strips fit (R175): the frame is the raw datablock of the packed present strings; it completes
when the status is `ST_OK`, and otherwise ends in the timeout, the framing error or the status error of its transaction.
The working registers' values after it are open (U24; notes/assumptions/9.md). -/
def Obligations.WriteRawOutcome : Prop :=
  ∀ (s : State) (p1 p2 p3 C : Bytes), ready s → s.cfg.wf = true →
    p1 = packedStrip s.cfg s.cfg.track1 s.in0 → p2 = packedStrip s.cfg s.cfg.track2 s.in1 →
    p3 = packedStrip s.cfg s.cfg.track3 s.in2 → p1.length ≤ 255 → p2.length ≤ 255 → p3.length ≤ 255 →
    C = s.cfg.opcWriteRaw :: rawBlock s.cfg p1 p2 p3 →
    ∃ a n l d,
      (∀ r, early s ≠ [] → isResponse s.cfg (accumulated s) r → r.status = s.cfg.stOK →
        exec .writeRaw s = .next { ended 0x14 (heard C s) with acc := a, cnt := n, lrc := l, draws := d, rsp := r }) ∧
      (early s = [] →
        exec .writeRaw s = .next { ended 0x14 (silent C s) with
          acc := a, cnt := n, lrc := l, draws := d, err := { kind := .transportTimeout, op := 0x14 } }) ∧
      (early s ≠ [] → noResponse s.cfg (accumulated s) →
        exec .writeRaw s = .next { framed 0x14 (accumulated s).length (accumulated s) (heard C s) with
          acc := a, cnt := n, lrc := l, draws := d }) ∧
      (∀ r, early s ≠ [] → isResponse s.cfg (accumulated s) r → r.status ≠ s.cfg.stOK →
        exec .writeRaw s = .next { ended 0x14 (heard C s) with
          acc := a, cnt := n, lrc := l, draws := d, rsp := r,
          err := { kind := .deviceStatusError, op := 0x14, status := r.status } })

/-- WRITE_RAW of a string whose packed strip exceeds 255 bytes raises `EncodingPrecondition(WRITE_RAW, k)` for the first
such track before the flush and before anything is written (R175, R195, R200). The working registers' values after it are
open (U24; notes/assumptions/9.md). -/
def Obligations.WriteRawTooLongRaisesFirst : Prop :=
  ∀ (s : State) (ps : List Bytes) (k : Nat), ready s → s.cfg.wf = true →
    ps = [packedStrip s.cfg s.cfg.track1 s.in0, packedStrip s.cfg s.cfg.track2 s.in1,
      packedStrip s.cfg s.cfg.track3 s.in2] →
    k < 3 → 255 < (ps.getD k []).length → (∀ j, j < k → (ps.getD j []).length ≤ 255) →
    ∃ a n l d, exec .writeRaw s = .next { ended 0x14 s with
      acc := a, cnt := n, lrc := l, draws := d,
      err := { kind := .encodingPrecondition, op := 0x14, arg := BitVec.ofNat 8 (k + 1) } }

/-- SET_BPI is one transaction per present mode byte in track order, `MSTEP` counting those that passed, the first failure
ending it and naming its mode byte (R178); with no mode byte nothing is written and nothing flushed. -/
def Obligations.SetBpiOutcome : Prop :=
  ∀ (s : State) (m1 m2 m3 : Option Byte), ready s →
    exec (.setBpi m1 m2 m3) s = .next (bpiRun ([m1, m2, m3].filterMap id) { ended 0x18 s with mstep := 0 }) ∧
    exec (.setBpi none none none) s = .next { ended 0x18 s with mstep := 0 }

/-- SET_BPI of one mode byte, whatever its track, completes with `MSTEP` = 1 when the status is `ST_OK` (R178). -/
def Obligations.SetBpiOneModeCompletes : Prop :=
  ∀ (s : State) (m : Byte) (r : Response) (i : Instr), ready s →
    i ∈ [.setBpi (some m) none none, .setBpi none (some m) none, .setBpi none none (some m)] →
    early s ≠ [] → isResponse s.cfg (accumulated s) r → r.status = s.cfg.stOK →
    exec i s = .next { ended 0x18 (heard [s.cfg.opcSetBpi, m] s) with rsp := r, mstep := 1 }

/-! ### The whole block -/

/-- Every operation that is taken up ends: the block is idle and not busy again, `OPSEL` names the operation, and the error
registers hold either nothing or one whole record as its kind's rule gives it, which names the operation too and stands
beside no partial result (R152, R154, R191 to R195, R199, R200). That `OPSEL` and `ERR_OP` hold the code of SEND or SENDWAIT
for a wire command is notes/assumptions/4.md. -/
def Obligations.EveryOperationEnds : Prop :=
  ∀ (i : Instr) (s : State), taken i s →
    ∃ t, exec i s = .next t ∧ t.busy = false ∧ t.tstate = .idle ∧ t.opsel = selectCode i ∧
      t.err.wf s.cfg ∧ (t.err.kind = .none → t.err = {}) ∧
      (t.err.kind ≠ .none → t.err.op = selectCode i ∧ t.resultsCleared)

/-- Which kinds of error each operation may raise (R180, R191), for parameters as R219 asks. -/
def Obligations.ErrorKindsPerOperation : Prop :=
  ∀ (i : Instr) (s t : State), s.cfg.wf = true → taken i s → exec i s = .next t →
    t.err.kind = .none ∨ t.err.kind ∈ mayRaise i

/-- The response registers hold what they held before, or the response parsed by the operation itself (R22, R151, R157): of
the operand for PARSE, of the bytes accumulated by its transaction for an operation with one, and for SET_BPI of those of its
last transaction that received a response, which `MSTEP` counts (R178). A parse that succeeds is written; SEND, RESET, the
wire command reset and the pure operations other than PARSE write nothing. The device's plan is notes/assumptions/8.md. -/
def Obligations.ResponseRegistersHoldAParse : Prop :=
  ∀ (i : Instr) (s t : State), exec i s = .next t →
    (t.rsp = s.rsp ∨
      (i = .parse ∧ isResponse s.cfg s.in0.bytes t.rsp) ∨
      (((transaction s i).isSome = true ∨ i = .writeRaw) ∧ early s ≠ [] ∧ isResponse s.cfg (accumulated s) t.rsp) ∨
      (∃ m1 m2 m3 k, i = .setBpi m1 m2 m3 ∧ k < ([m1, m2, m3].filterMap id).length ∧
        t.mstep.toNat = k + (if t.err.kind = .deviceStatusError then 0 else 1) ∧
        early (afterTransactions k s) ≠ [] ∧ isResponse s.cfg (accumulated (afterTransactions k s)) t.rsp)) ∧
    (∀ r, ready s → i = .parse → isResponse s.cfg s.in0.bytes r → t.rsp = r) ∧
    (∀ r, ready s → (transaction s i).isSome = true ∨ (i = .writeRaw ∧ t.err.kind ≠ .encodingPrecondition) →
      early s ≠ [] → isResponse s.cfg (accumulated s) r → t.rsp = r) ∧
    ((isPure i = true ∧ i ≠ .parse) ∨ i = .send ∨ i = .reset ∨ i = .cmdReset → t.rsp = s.rsp)

/-- `TXS` only grows, by whole frames of the operation's own command bytes, in order, from the first on (R23, R50, R141,
R180). An operation that is taken up writes them all, but for two: WRITE_RAW writes nothing when it raises
`EncodingPrecondition` (R168, R175), and SET_BPI writes one frame per transaction that passed, which `MSTEP` counts, and one
for the transaction that ended it (R178). -/
def Obligations.TransmitStreamGrowsByFrames : Prop :=
  ∀ (i : Instr) (s t : State), exec i s = .next t →
    ∃ Cs : List Bytes, Cs <+: commandsOf s i ∧ t.txs = s.txs ++ framesOf s.cfg Cs ∧
      (isPure i = true → Cs = []) ∧
      (taken i s → i ≠ .writeRaw → (∀ m1 m2 m3, i ≠ .setBpi m1 m2 m3) → Cs = commandsOf s i) ∧
      (taken i s → i = .writeRaw → Cs = if t.err.kind = .encodingPrecondition then [] else commandsOf s i) ∧
      (taken i s → ∀ m1 m2 m3, i = .setBpi m1 m2 m3 →
        Cs.length = t.mstep.toNat + (if t.err.kind = .none then 0 else 1))

/-- The pure codec operations and PARSE touch no link state (R86, R111, R126, R156). -/
def Obligations.PureOperationsLeaveTheLink : Prop :=
  ∀ (i : Instr) (s t : State), isPure i = true → exec i s = .next t →
    t.txs = s.txs ∧ t.rxf = s.rxf ∧ t.rxbuf = s.rxbuf ∧ t.tmr = s.tmr ∧ t.dev = s.dev

/-- No operation writes a parameter, `TRACK_CFG` among them, an operand buffer, or the link's ownership; only SET_BPI
writes `MSTEP` (R25, R28, R170, R179, R221). -/
def Obligations.OperandsParametersAndMstepAreKept : Prop :=
  ∀ (i : Instr) (s t : State), exec i s = .next t →
    t.cfg = s.cfg ∧ t.in0 = s.in0 ∧ t.in1 = s.in1 ∧ t.in2 = s.in2 ∧ t.linkOpen = s.linkOpen ∧ t.host = s.host ∧
    ((∀ m1 m2 m3, i ≠ .setBpi m1 m2 m3) → t.mstep = s.mstep)

/-- Only UNPACK and READ_RAW produce the flags and the counts, and only the operations that pack or unpack write the working
registers (R16 to R19, R111, R126). -/
def Obligations.FlagsAndWorkingRegistersByPackerOnly : Prop :=
  ∀ (i : Instr) (s t : State), taken i s → exec i s = .next t →
    ((∀ A w ow, i ≠ .unpack A w ow) → i ≠ .readRaw → ∀ o ∈ [t.out0, t.out1, t.out2],
      o.marks = [] ∧ o.lrcErr = false ∧ o.totlen = 0) ∧
    ((∀ A w ow, i ≠ .unpack A w ow) → i ≠ .readRaw → t.pos = s.pos ∧ t.lastnz = s.lastnz) ∧
    ((∀ A w ow, i ≠ .pack A w ow) → (∀ A w ow, i ≠ .unpack A w ow) → i ≠ .readRaw → i ≠ .writeRaw →
      t.acc = s.acc ∧ t.cnt = s.cnt ∧ t.lrc = s.lrc)

/-- What was in `RXF` or `RXBUF` when a transaction began cannot influence it in any way (R56, R146). For every
one-transaction operation but WRITE_RAW. -/
def Obligations.StaleBytesHaveNoInfluence : Prop :=
  ∀ (i : Instr) (s : State) (X Y : Bytes), ready s → (transaction s i).isSome = true →
    exec i { s with rxf := X, rxbuf := Y } = exec i s

/-- The invariant of Sys2Proof/Safety.lean is kept by every step, from every state that has it. -/
def Obligations.StepKeepsInvariant : Prop :=
  ∀ s t : State, Machine.Inv s → step s = .next t → Machine.Inv t

/-- The invariant holds right after reset, whatever `RXF` holds then (R33). -/
def Obligations.InvariantAtReset : Prop :=
  Machine.Inv State.reset ∧ ∀ (c : Config) (rx : Bytes), c.wf = true → Machine.Inv (State.resetWith c rx)

/-- The block never stops: from every state, a run of any length meets no fault and no refusal (R154, R197, R201). -/
def Obligations.BlockNeverStops : Prop :=
  ∀ (n : Nat) (s : State), safeFor n s

/-- The reset event gives the state of R33 from any state, `RXF` holding whatever the device had sent, and writes nothing
to the link (R216); teardown closes the link (R218). `TMR` after reset is unspecified (U24): the statement leaves it open.
The host's and the device's plans and the count of free values are the model's own fields (notes/assumptions/8.md, 9.md). -/
def Obligations.ResetAndTeardown : Prop :=
  ∀ (s : State) (rest : List HostAct),
    (∀ rx, s.host = .reset rx :: rest → ∃ n, step s = .next
      ({ cfg := s.cfg, acc := 0, cnt := 0, lrc := 0, pos := 0, lastnz := none, in0 := {}, in1 := {}, in2 := {},
         out0 := {}, out1 := {}, out2 := {}, rxbuf := [], rsp := {}, txs := [], rxf := rx, linkOpen := true,
         tstate := .idle, opsel := 0, busy := false, mstep := 0, tmr := n, err := {}, host := rest,
         dev := s.dev, draws := s.draws } : State)) ∧
    (s.host = .teardown :: rest → ∃ t, step s = .next t ∧ t.linkOpen = false ∧ t.host = rest ∧
      ∀ i : Instr, exec i t = .next t)

/-- What the device sends while no operation runs joins `RXF` in order and changes nothing else (R23, R161, R203); a host
that loads an operand buffer changes that buffer alone, and cannot present an operand longer than `BUF_MAX` (R20, R205).
The plans are the model's (notes/assumptions/8.md). -/
def Obligations.EnvironmentBetweenOperations : Prop :=
  ∀ (s : State) (rest : List HostAct), s.linkOpen = true →
    (s.host = .idle :: rest → step s = .next { s with
      host := rest, rxf := s.rxf ++ arrival s 0, dev := s.dev.drop 1 }) ∧
    (s.host = [] → step s = .next { s with rxf := s.rxf ++ arrival s 0, dev := s.dev.drop 1 }) ∧
    (∀ k b p, s.host = .load k b p :: rest →
      (s.cfg.bufMax < List.length b → step s = .next { s with host := rest }) ∧
      (List.length b ≤ s.cfg.bufMax →
        (k = 0 → step s = .next { s with host := rest, in0 := ⟨b, p⟩ }) ∧
        (k = 1 → step s = .next { s with host := rest, in1 := ⟨b, p⟩ }) ∧
        (k = 2 → step s = .next { s with host := rest, in2 := ⟨b, p⟩ })))

/-- The receive primitives of R51 to R53 and the write of R50: a flush empties `RXF`; a first read takes exactly the front
byte, or times out exactly when there is none; a drain takes the first `min(len(RXF), max)` bytes. -/
def Obligations.LinkPrimitives : Prop :=
  ∀ (s : State) (S : Bytes) (max : Nat),
    linkWrite S s = { s with txs := s.txs ++ S } ∧ linkFlush s = { s with rxf := [] } ∧
    (s.rxf = [] → linkReadFirst s = (none, s)) ∧
    (∀ v rest, s.rxf = v :: rest → linkReadFirst s = (some v, { s with rxf := rest })) ∧
    (∃ bytes, linkDrain max s = (bytes, { s with rxf := s.rxf.drop bytes.length }) ∧
      s.rxf = bytes ++ s.rxf.drop bytes.length ∧ bytes.length = min s.rxf.length max)
end

