-- ==== Sys2Proof/Laws/Config.lean ====
section
/-! SUPPORT. What `fits` says, and the constraints `Config.wf` stands for. -/

namespace Sys2Proof.Laws

/-- `fits` is `≤ BUF_MAX`. -/
theorem fits_iff (c : Config) (n : Nat) : c.fits n = true ↔ n ≤ c.bufMax := by
  unfold Config.fits Config.bufMax
  rw [Nat.ble_eq]
  omega

/-- `BUF_MAX ≥ 1 + DRAIN_MAX` (R219). -/
theorem drainMax_lt_bufMax (c : Config) : 1 + c.drainMax ≤ c.bufMax := by
  unfold Config.bufMax
  omega

/-- `2^POSW > 4*BUF_MAX + 1`, and no smaller width will do (R5, R18). -/
theorem posw_least (c : Config) : 4 * c.bufMax + 1 < 2 ^ c.posw ∧ ∀ n, 4 * c.bufMax + 1 < 2 ^ n → c.posw ≤ n :=
  ⟨Nat.lt_log2_self, fun _ h => (Nat.log2_lt (by omega)).mpr h⟩

/-- What a well-formed `TRACK_CFG` register gives the packer (R91, R205). -/
theorem track_wf_iff (c : Config) (t : TrackCfg) :
    t.wf c = true ↔
      1 ≤ t.codeWidth.toNat ∧ t.codeWidth.toNat ≤ 6 ∧ 1 ≤ t.outputWidth.toNat ∧ t.outputWidth.toNat ≤ 8 ∧
      (match t.sel with | .t1 => c.alphaT1 | .t23 => c.alphaT23).length = 2 ^ t.codeWidth.toNat ∧
      255 * t.outputWidth.toNat / (t.codeWidth.toNat + 1) ≤ c.bufMax := by
  simp only [TrackCfg.wf, Bool.and_eq_true, decide_eq_true_eq, beq_iff_eq, fits_iff]
  tauto

/-- The constraints of R219. -/
theorem config_wf_iff (c : Config) :
    c.wf = true ↔
      c.opcodes.Nodup ∧ c.alphaT1.length = 64 ∧ c.alphaT23.length = 16 ∧
      c.track1.wf c = true ∧ c.track2.wf c = true ∧ c.track3.wf c = true ∧ 779 ≤ c.drainMax := by
  simp only [Config.wf, Bool.and_eq_true, decide_eq_true_eq, beq_iff_eq]
  tauto

/-- The default parameters satisfy R219. -/
theorem default_wf : Config.default.wf = true := by decide

end Sys2Proof.Laws
end

