-- ==== Sys2Proof/Laws/State.lean ====
section
/-! SUPPORT. One lemma per field per named update of the state, so that no later proof unfolds a record update. The three
updates with two cases (`arrive`, `doWaitFirst`, `doParse`) have here the fields they leave alone; what they change is in
Sys2Proof/Laws/Ops.lean and Sys2Proof/Laws/Transport.lean. What the two discards leave in the working registers is free but
for the bounds in Sys2Proof/Laws/Packer.lean. -/

namespace Sys2Proof.Laws
open Sys2Proof.Machine

variable (s : State)

/-! ### `linkWrite` -/

@[simp] theorem linkWrite_cfg (S : Bytes) : (linkWrite S s).cfg = s.cfg := rfl
@[simp] theorem linkWrite_acc (S : Bytes) : (linkWrite S s).acc = s.acc := rfl
@[simp] theorem linkWrite_cnt (S : Bytes) : (linkWrite S s).cnt = s.cnt := rfl
@[simp] theorem linkWrite_lrc (S : Bytes) : (linkWrite S s).lrc = s.lrc := rfl
@[simp] theorem linkWrite_pos (S : Bytes) : (linkWrite S s).pos = s.pos := rfl
@[simp] theorem linkWrite_lastnz (S : Bytes) : (linkWrite S s).lastnz = s.lastnz := rfl
@[simp] theorem linkWrite_in0 (S : Bytes) : (linkWrite S s).in0 = s.in0 := rfl
@[simp] theorem linkWrite_in1 (S : Bytes) : (linkWrite S s).in1 = s.in1 := rfl
@[simp] theorem linkWrite_in2 (S : Bytes) : (linkWrite S s).in2 = s.in2 := rfl
@[simp] theorem linkWrite_out0 (S : Bytes) : (linkWrite S s).out0 = s.out0 := rfl
@[simp] theorem linkWrite_out1 (S : Bytes) : (linkWrite S s).out1 = s.out1 := rfl
@[simp] theorem linkWrite_out2 (S : Bytes) : (linkWrite S s).out2 = s.out2 := rfl
@[simp] theorem linkWrite_rxbuf (S : Bytes) : (linkWrite S s).rxbuf = s.rxbuf := rfl
@[simp] theorem linkWrite_rsp (S : Bytes) : (linkWrite S s).rsp = s.rsp := rfl
@[simp] theorem linkWrite_txs (S : Bytes) : (linkWrite S s).txs = s.txs ++ S := rfl
@[simp] theorem linkWrite_rxf (S : Bytes) : (linkWrite S s).rxf = s.rxf := rfl
@[simp] theorem linkWrite_linkOpen (S : Bytes) : (linkWrite S s).linkOpen = s.linkOpen := rfl
@[simp] theorem linkWrite_tstate (S : Bytes) : (linkWrite S s).tstate = s.tstate := rfl
@[simp] theorem linkWrite_opsel (S : Bytes) : (linkWrite S s).opsel = s.opsel := rfl
@[simp] theorem linkWrite_busy (S : Bytes) : (linkWrite S s).busy = s.busy := rfl
@[simp] theorem linkWrite_mstep (S : Bytes) : (linkWrite S s).mstep = s.mstep := rfl
@[simp] theorem linkWrite_tmr (S : Bytes) : (linkWrite S s).tmr = s.tmr := rfl
@[simp] theorem linkWrite_err (S : Bytes) : (linkWrite S s).err = s.err := rfl
@[simp] theorem linkWrite_host (S : Bytes) : (linkWrite S s).host = s.host := rfl
@[simp] theorem linkWrite_dev (S : Bytes) : (linkWrite S s).dev = s.dev := rfl
@[simp] theorem linkWrite_draws (S : Bytes) : (linkWrite S s).draws = s.draws := rfl

/-! ### `linkFlush` -/

@[simp] theorem linkFlush_cfg : (linkFlush s).cfg = s.cfg := rfl
@[simp] theorem linkFlush_acc : (linkFlush s).acc = s.acc := rfl
@[simp] theorem linkFlush_cnt : (linkFlush s).cnt = s.cnt := rfl
@[simp] theorem linkFlush_lrc : (linkFlush s).lrc = s.lrc := rfl
@[simp] theorem linkFlush_pos : (linkFlush s).pos = s.pos := rfl
@[simp] theorem linkFlush_lastnz : (linkFlush s).lastnz = s.lastnz := rfl
@[simp] theorem linkFlush_in0 : (linkFlush s).in0 = s.in0 := rfl
@[simp] theorem linkFlush_in1 : (linkFlush s).in1 = s.in1 := rfl
@[simp] theorem linkFlush_in2 : (linkFlush s).in2 = s.in2 := rfl
@[simp] theorem linkFlush_out0 : (linkFlush s).out0 = s.out0 := rfl
@[simp] theorem linkFlush_out1 : (linkFlush s).out1 = s.out1 := rfl
@[simp] theorem linkFlush_out2 : (linkFlush s).out2 = s.out2 := rfl
@[simp] theorem linkFlush_rxbuf : (linkFlush s).rxbuf = s.rxbuf := rfl
@[simp] theorem linkFlush_rsp : (linkFlush s).rsp = s.rsp := rfl
@[simp] theorem linkFlush_txs : (linkFlush s).txs = s.txs := rfl
@[simp] theorem linkFlush_rxf : (linkFlush s).rxf = [] := rfl
@[simp] theorem linkFlush_linkOpen : (linkFlush s).linkOpen = s.linkOpen := rfl
@[simp] theorem linkFlush_tstate : (linkFlush s).tstate = s.tstate := rfl
@[simp] theorem linkFlush_opsel : (linkFlush s).opsel = s.opsel := rfl
@[simp] theorem linkFlush_busy : (linkFlush s).busy = s.busy := rfl
@[simp] theorem linkFlush_mstep : (linkFlush s).mstep = s.mstep := rfl
@[simp] theorem linkFlush_tmr : (linkFlush s).tmr = s.tmr := rfl
@[simp] theorem linkFlush_err : (linkFlush s).err = s.err := rfl
@[simp] theorem linkFlush_host : (linkFlush s).host = s.host := rfl
@[simp] theorem linkFlush_dev : (linkFlush s).dev = s.dev := rfl
@[simp] theorem linkFlush_draws : (linkFlush s).draws = s.draws := rfl

/-! ### `accept` -/

@[simp] theorem accept_cfg (op : OpSel) : (accept op s).cfg = s.cfg := rfl
@[simp] theorem accept_acc (op : OpSel) : (accept op s).acc = s.acc := rfl
@[simp] theorem accept_cnt (op : OpSel) : (accept op s).cnt = s.cnt := rfl
@[simp] theorem accept_lrc (op : OpSel) : (accept op s).lrc = s.lrc := rfl
@[simp] theorem accept_pos (op : OpSel) : (accept op s).pos = s.pos := rfl
@[simp] theorem accept_lastnz (op : OpSel) : (accept op s).lastnz = s.lastnz := rfl
@[simp] theorem accept_in0 (op : OpSel) : (accept op s).in0 = s.in0 := rfl
@[simp] theorem accept_in1 (op : OpSel) : (accept op s).in1 = s.in1 := rfl
@[simp] theorem accept_in2 (op : OpSel) : (accept op s).in2 = s.in2 := rfl
@[simp] theorem accept_out0 (op : OpSel) : (accept op s).out0 = {} := rfl
@[simp] theorem accept_out1 (op : OpSel) : (accept op s).out1 = {} := rfl
@[simp] theorem accept_out2 (op : OpSel) : (accept op s).out2 = {} := rfl
@[simp] theorem accept_rxbuf (op : OpSel) : (accept op s).rxbuf = s.rxbuf := rfl
@[simp] theorem accept_rsp (op : OpSel) : (accept op s).rsp = s.rsp := rfl
@[simp] theorem accept_txs (op : OpSel) : (accept op s).txs = s.txs := rfl
@[simp] theorem accept_rxf (op : OpSel) : (accept op s).rxf = s.rxf := rfl
@[simp] theorem accept_linkOpen (op : OpSel) : (accept op s).linkOpen = s.linkOpen := rfl
@[simp] theorem accept_tstate (op : OpSel) : (accept op s).tstate = s.tstate := rfl
@[simp] theorem accept_opsel (op : OpSel) : (accept op s).opsel = op := rfl
@[simp] theorem accept_busy (op : OpSel) : (accept op s).busy = true := rfl
@[simp] theorem accept_mstep (op : OpSel) : (accept op s).mstep = s.mstep := rfl
@[simp] theorem accept_tmr (op : OpSel) : (accept op s).tmr = s.tmr := rfl
@[simp] theorem accept_err (op : OpSel) : (accept op s).err = {} := rfl
@[simp] theorem accept_host (op : OpSel) : (accept op s).host = s.host := rfl
@[simp] theorem accept_dev (op : OpSel) : (accept op s).dev = s.dev := rfl
@[simp] theorem accept_draws (op : OpSel) : (accept op s).draws = s.draws := rfl

/-! ### `complete` -/

@[simp] theorem complete_cfg : (complete s).cfg = s.cfg := rfl
@[simp] theorem complete_acc : (complete s).acc = s.acc := rfl
@[simp] theorem complete_cnt : (complete s).cnt = s.cnt := rfl
@[simp] theorem complete_lrc : (complete s).lrc = s.lrc := rfl
@[simp] theorem complete_pos : (complete s).pos = s.pos := rfl
@[simp] theorem complete_lastnz : (complete s).lastnz = s.lastnz := rfl
@[simp] theorem complete_in0 : (complete s).in0 = s.in0 := rfl
@[simp] theorem complete_in1 : (complete s).in1 = s.in1 := rfl
@[simp] theorem complete_in2 : (complete s).in2 = s.in2 := rfl
@[simp] theorem complete_out0 : (complete s).out0 = s.out0 := rfl
@[simp] theorem complete_out1 : (complete s).out1 = s.out1 := rfl
@[simp] theorem complete_out2 : (complete s).out2 = s.out2 := rfl
@[simp] theorem complete_rxbuf : (complete s).rxbuf = s.rxbuf := rfl
@[simp] theorem complete_rsp : (complete s).rsp = s.rsp := rfl
@[simp] theorem complete_txs : (complete s).txs = s.txs := rfl
@[simp] theorem complete_rxf : (complete s).rxf = s.rxf := rfl
@[simp] theorem complete_linkOpen : (complete s).linkOpen = s.linkOpen := rfl
@[simp] theorem complete_tstate : (complete s).tstate = .idle := rfl
@[simp] theorem complete_opsel : (complete s).opsel = s.opsel := rfl
@[simp] theorem complete_busy : (complete s).busy = false := rfl
@[simp] theorem complete_mstep : (complete s).mstep = s.mstep := rfl
@[simp] theorem complete_tmr : (complete s).tmr = s.tmr := rfl
@[simp] theorem complete_err : (complete s).err = s.err := rfl
@[simp] theorem complete_host : (complete s).host = s.host := rfl
@[simp] theorem complete_dev : (complete s).dev = s.dev := rfl
@[simp] theorem complete_draws : (complete s).draws = s.draws := rfl

/-! ### `raise` -/

@[simp] theorem raise_cfg (e : Err) : (raise e s).cfg = s.cfg := rfl
@[simp] theorem raise_acc (e : Err) : (raise e s).acc = s.acc := rfl
@[simp] theorem raise_cnt (e : Err) : (raise e s).cnt = s.cnt := rfl
@[simp] theorem raise_lrc (e : Err) : (raise e s).lrc = s.lrc := rfl
@[simp] theorem raise_pos (e : Err) : (raise e s).pos = s.pos := rfl
@[simp] theorem raise_lastnz (e : Err) : (raise e s).lastnz = s.lastnz := rfl
@[simp] theorem raise_in0 (e : Err) : (raise e s).in0 = s.in0 := rfl
@[simp] theorem raise_in1 (e : Err) : (raise e s).in1 = s.in1 := rfl
@[simp] theorem raise_in2 (e : Err) : (raise e s).in2 = s.in2 := rfl
@[simp] theorem raise_out0 (e : Err) : (raise e s).out0 = {} := rfl
@[simp] theorem raise_out1 (e : Err) : (raise e s).out1 = {} := rfl
@[simp] theorem raise_out2 (e : Err) : (raise e s).out2 = {} := rfl
@[simp] theorem raise_rxbuf (e : Err) : (raise e s).rxbuf = s.rxbuf := rfl
@[simp] theorem raise_rsp (e : Err) : (raise e s).rsp = s.rsp := rfl
@[simp] theorem raise_txs (e : Err) : (raise e s).txs = s.txs := rfl
@[simp] theorem raise_rxf (e : Err) : (raise e s).rxf = s.rxf := rfl
@[simp] theorem raise_linkOpen (e : Err) : (raise e s).linkOpen = s.linkOpen := rfl
@[simp] theorem raise_tstate (e : Err) : (raise e s).tstate = .idle := rfl
@[simp] theorem raise_opsel (e : Err) : (raise e s).opsel = s.opsel := rfl
@[simp] theorem raise_busy (e : Err) : (raise e s).busy = false := rfl
@[simp] theorem raise_mstep (e : Err) : (raise e s).mstep = s.mstep := rfl
@[simp] theorem raise_tmr (e : Err) : (raise e s).tmr = s.tmr := rfl
@[simp] theorem raise_err (e : Err) : (raise e s).err = errRegs s.opsel e := rfl
@[simp] theorem raise_host (e : Err) : (raise e s).host = s.host := rfl
@[simp] theorem raise_dev (e : Err) : (raise e s).dev = s.dev := rfl
@[simp] theorem raise_draws (e : Err) : (raise e s).draws = s.draws := rfl

/-! ### `enterTransaction` -/

@[simp] theorem enterTransaction_cfg : (enterTransaction s).cfg = s.cfg := rfl
@[simp] theorem enterTransaction_acc : (enterTransaction s).acc = s.acc := rfl
@[simp] theorem enterTransaction_cnt : (enterTransaction s).cnt = s.cnt := rfl
@[simp] theorem enterTransaction_lrc : (enterTransaction s).lrc = s.lrc := rfl
@[simp] theorem enterTransaction_pos : (enterTransaction s).pos = s.pos := rfl
@[simp] theorem enterTransaction_lastnz : (enterTransaction s).lastnz = s.lastnz := rfl
@[simp] theorem enterTransaction_in0 : (enterTransaction s).in0 = s.in0 := rfl
@[simp] theorem enterTransaction_in1 : (enterTransaction s).in1 = s.in1 := rfl
@[simp] theorem enterTransaction_in2 : (enterTransaction s).in2 = s.in2 := rfl
@[simp] theorem enterTransaction_out0 : (enterTransaction s).out0 = s.out0 := rfl
@[simp] theorem enterTransaction_out1 : (enterTransaction s).out1 = s.out1 := rfl
@[simp] theorem enterTransaction_out2 : (enterTransaction s).out2 = s.out2 := rfl
@[simp] theorem enterTransaction_rxbuf : (enterTransaction s).rxbuf = [] := rfl
@[simp] theorem enterTransaction_rsp : (enterTransaction s).rsp = s.rsp := rfl
@[simp] theorem enterTransaction_txs : (enterTransaction s).txs = s.txs := rfl
@[simp] theorem enterTransaction_rxf : (enterTransaction s).rxf = s.rxf := rfl
@[simp] theorem enterTransaction_linkOpen : (enterTransaction s).linkOpen = s.linkOpen := rfl
@[simp] theorem enterTransaction_tstate : (enterTransaction s).tstate = .flush := rfl
@[simp] theorem enterTransaction_opsel : (enterTransaction s).opsel = s.opsel := rfl
@[simp] theorem enterTransaction_busy : (enterTransaction s).busy = s.busy := rfl
@[simp] theorem enterTransaction_mstep : (enterTransaction s).mstep = s.mstep := rfl
@[simp] theorem enterTransaction_tmr : (enterTransaction s).tmr = s.tmr := rfl
@[simp] theorem enterTransaction_err : (enterTransaction s).err = s.err := rfl
@[simp] theorem enterTransaction_host : (enterTransaction s).host = s.host := rfl
@[simp] theorem enterTransaction_dev : (enterTransaction s).dev = s.dev := rfl
@[simp] theorem enterTransaction_draws : (enterTransaction s).draws = s.draws := rfl

/-! ### `doFlush` -/

@[simp] theorem doFlush_cfg : (doFlush s).cfg = s.cfg := rfl
@[simp] theorem doFlush_acc : (doFlush s).acc = s.acc := rfl
@[simp] theorem doFlush_cnt : (doFlush s).cnt = s.cnt := rfl
@[simp] theorem doFlush_lrc : (doFlush s).lrc = s.lrc := rfl
@[simp] theorem doFlush_pos : (doFlush s).pos = s.pos := rfl
@[simp] theorem doFlush_lastnz : (doFlush s).lastnz = s.lastnz := rfl
@[simp] theorem doFlush_in0 : (doFlush s).in0 = s.in0 := rfl
@[simp] theorem doFlush_in1 : (doFlush s).in1 = s.in1 := rfl
@[simp] theorem doFlush_in2 : (doFlush s).in2 = s.in2 := rfl
@[simp] theorem doFlush_out0 : (doFlush s).out0 = s.out0 := rfl
@[simp] theorem doFlush_out1 : (doFlush s).out1 = s.out1 := rfl
@[simp] theorem doFlush_out2 : (doFlush s).out2 = s.out2 := rfl
@[simp] theorem doFlush_rxbuf : (doFlush s).rxbuf = s.rxbuf := rfl
@[simp] theorem doFlush_rsp : (doFlush s).rsp = s.rsp := rfl
@[simp] theorem doFlush_txs : (doFlush s).txs = s.txs := rfl
@[simp] theorem doFlush_rxf : (doFlush s).rxf = [] := rfl
@[simp] theorem doFlush_linkOpen : (doFlush s).linkOpen = s.linkOpen := rfl
@[simp] theorem doFlush_tstate : (doFlush s).tstate = .tx := rfl
@[simp] theorem doFlush_opsel : (doFlush s).opsel = s.opsel := rfl
@[simp] theorem doFlush_busy : (doFlush s).busy = s.busy := rfl
@[simp] theorem doFlush_mstep : (doFlush s).mstep = s.mstep := rfl
@[simp] theorem doFlush_tmr : (doFlush s).tmr = s.tmr := rfl
@[simp] theorem doFlush_err : (doFlush s).err = s.err := rfl
@[simp] theorem doFlush_host : (doFlush s).host = s.host := rfl
@[simp] theorem doFlush_dev : (doFlush s).dev = s.dev := rfl
@[simp] theorem doFlush_draws : (doFlush s).draws = s.draws := rfl

/-! ### `doTx` -/

@[simp] theorem doTx_cfg (C : Bytes) : (doTx C s).cfg = s.cfg := rfl
@[simp] theorem doTx_acc (C : Bytes) : (doTx C s).acc = s.acc := rfl
@[simp] theorem doTx_cnt (C : Bytes) : (doTx C s).cnt = s.cnt := rfl
@[simp] theorem doTx_lrc (C : Bytes) : (doTx C s).lrc = s.lrc := rfl
@[simp] theorem doTx_pos (C : Bytes) : (doTx C s).pos = s.pos := rfl
@[simp] theorem doTx_lastnz (C : Bytes) : (doTx C s).lastnz = s.lastnz := rfl
@[simp] theorem doTx_in0 (C : Bytes) : (doTx C s).in0 = s.in0 := rfl
@[simp] theorem doTx_in1 (C : Bytes) : (doTx C s).in1 = s.in1 := rfl
@[simp] theorem doTx_in2 (C : Bytes) : (doTx C s).in2 = s.in2 := rfl
@[simp] theorem doTx_out0 (C : Bytes) : (doTx C s).out0 = s.out0 := rfl
@[simp] theorem doTx_out1 (C : Bytes) : (doTx C s).out1 = s.out1 := rfl
@[simp] theorem doTx_out2 (C : Bytes) : (doTx C s).out2 = s.out2 := rfl
@[simp] theorem doTx_rxbuf (C : Bytes) : (doTx C s).rxbuf = s.rxbuf := rfl
@[simp] theorem doTx_rsp (C : Bytes) : (doTx C s).rsp = s.rsp := rfl
@[simp] theorem doTx_txs (C : Bytes) : (doTx C s).txs = s.txs ++ frame s.cfg C := rfl
@[simp] theorem doTx_rxf (C : Bytes) : (doTx C s).rxf = s.rxf := rfl
@[simp] theorem doTx_linkOpen (C : Bytes) : (doTx C s).linkOpen = s.linkOpen := rfl
@[simp] theorem doTx_tstate (C : Bytes) : (doTx C s).tstate = .settleTx := rfl
@[simp] theorem doTx_opsel (C : Bytes) : (doTx C s).opsel = s.opsel := rfl
@[simp] theorem doTx_busy (C : Bytes) : (doTx C s).busy = s.busy := rfl
@[simp] theorem doTx_mstep (C : Bytes) : (doTx C s).mstep = s.mstep := rfl
@[simp] theorem doTx_tmr (C : Bytes) : (doTx C s).tmr = s.cfg.tSettleTx := rfl
@[simp] theorem doTx_err (C : Bytes) : (doTx C s).err = s.err := rfl
@[simp] theorem doTx_host (C : Bytes) : (doTx C s).host = s.host := rfl
@[simp] theorem doTx_dev (C : Bytes) : (doTx C s).dev = s.dev := rfl
@[simp] theorem doTx_draws (C : Bytes) : (doTx C s).draws = s.draws := rfl

/-! ### `doSettleTx` -/

@[simp] theorem doSettleTx_cfg (timeout : Nat) : (doSettleTx timeout s).cfg = s.cfg := rfl
@[simp] theorem doSettleTx_acc (timeout : Nat) : (doSettleTx timeout s).acc = s.acc := rfl
@[simp] theorem doSettleTx_cnt (timeout : Nat) : (doSettleTx timeout s).cnt = s.cnt := rfl
@[simp] theorem doSettleTx_lrc (timeout : Nat) : (doSettleTx timeout s).lrc = s.lrc := rfl
@[simp] theorem doSettleTx_pos (timeout : Nat) : (doSettleTx timeout s).pos = s.pos := rfl
@[simp] theorem doSettleTx_lastnz (timeout : Nat) : (doSettleTx timeout s).lastnz = s.lastnz := rfl
@[simp] theorem doSettleTx_in0 (timeout : Nat) : (doSettleTx timeout s).in0 = s.in0 := rfl
@[simp] theorem doSettleTx_in1 (timeout : Nat) : (doSettleTx timeout s).in1 = s.in1 := rfl
@[simp] theorem doSettleTx_in2 (timeout : Nat) : (doSettleTx timeout s).in2 = s.in2 := rfl
@[simp] theorem doSettleTx_out0 (timeout : Nat) : (doSettleTx timeout s).out0 = s.out0 := rfl
@[simp] theorem doSettleTx_out1 (timeout : Nat) : (doSettleTx timeout s).out1 = s.out1 := rfl
@[simp] theorem doSettleTx_out2 (timeout : Nat) : (doSettleTx timeout s).out2 = s.out2 := rfl
@[simp] theorem doSettleTx_rxbuf (timeout : Nat) : (doSettleTx timeout s).rxbuf = s.rxbuf := rfl
@[simp] theorem doSettleTx_rsp (timeout : Nat) : (doSettleTx timeout s).rsp = s.rsp := rfl
@[simp] theorem doSettleTx_txs (timeout : Nat) : (doSettleTx timeout s).txs = s.txs := rfl
@[simp] theorem doSettleTx_rxf (timeout : Nat) : (doSettleTx timeout s).rxf = s.rxf := rfl
@[simp] theorem doSettleTx_linkOpen (timeout : Nat) : (doSettleTx timeout s).linkOpen = s.linkOpen := rfl
@[simp] theorem doSettleTx_tstate (timeout : Nat) : (doSettleTx timeout s).tstate = .waitFirst := rfl
@[simp] theorem doSettleTx_opsel (timeout : Nat) : (doSettleTx timeout s).opsel = s.opsel := rfl
@[simp] theorem doSettleTx_busy (timeout : Nat) : (doSettleTx timeout s).busy = s.busy := rfl
@[simp] theorem doSettleTx_mstep (timeout : Nat) : (doSettleTx timeout s).mstep = s.mstep := rfl
@[simp] theorem doSettleTx_tmr (timeout : Nat) : (doSettleTx timeout s).tmr = timeout := rfl
@[simp] theorem doSettleTx_err (timeout : Nat) : (doSettleTx timeout s).err = s.err := rfl
@[simp] theorem doSettleTx_host (timeout : Nat) : (doSettleTx timeout s).host = s.host := rfl
@[simp] theorem doSettleTx_dev (timeout : Nat) : (doSettleTx timeout s).dev = s.dev := rfl
@[simp] theorem doSettleTx_draws (timeout : Nat) : (doSettleTx timeout s).draws = s.draws := rfl

/-! ### `doSettleRx` -/

@[simp] theorem doSettleRx_cfg : (doSettleRx s).cfg = s.cfg := rfl
@[simp] theorem doSettleRx_acc : (doSettleRx s).acc = s.acc := rfl
@[simp] theorem doSettleRx_cnt : (doSettleRx s).cnt = s.cnt := rfl
@[simp] theorem doSettleRx_lrc : (doSettleRx s).lrc = s.lrc := rfl
@[simp] theorem doSettleRx_pos : (doSettleRx s).pos = s.pos := rfl
@[simp] theorem doSettleRx_lastnz : (doSettleRx s).lastnz = s.lastnz := rfl
@[simp] theorem doSettleRx_in0 : (doSettleRx s).in0 = s.in0 := rfl
@[simp] theorem doSettleRx_in1 : (doSettleRx s).in1 = s.in1 := rfl
@[simp] theorem doSettleRx_in2 : (doSettleRx s).in2 = s.in2 := rfl
@[simp] theorem doSettleRx_out0 : (doSettleRx s).out0 = s.out0 := rfl
@[simp] theorem doSettleRx_out1 : (doSettleRx s).out1 = s.out1 := rfl
@[simp] theorem doSettleRx_out2 : (doSettleRx s).out2 = s.out2 := rfl
@[simp] theorem doSettleRx_rxbuf : (doSettleRx s).rxbuf = s.rxbuf := rfl
@[simp] theorem doSettleRx_rsp : (doSettleRx s).rsp = s.rsp := rfl
@[simp] theorem doSettleRx_txs : (doSettleRx s).txs = s.txs := rfl
@[simp] theorem doSettleRx_rxf : (doSettleRx s).rxf = s.rxf := rfl
@[simp] theorem doSettleRx_linkOpen : (doSettleRx s).linkOpen = s.linkOpen := rfl
@[simp] theorem doSettleRx_tstate : (doSettleRx s).tstate = .drain := rfl
@[simp] theorem doSettleRx_opsel : (doSettleRx s).opsel = s.opsel := rfl
@[simp] theorem doSettleRx_busy : (doSettleRx s).busy = s.busy := rfl
@[simp] theorem doSettleRx_mstep : (doSettleRx s).mstep = s.mstep := rfl
@[simp] theorem doSettleRx_tmr : (doSettleRx s).tmr = 0 := rfl
@[simp] theorem doSettleRx_err : (doSettleRx s).err = s.err := rfl
@[simp] theorem doSettleRx_host : (doSettleRx s).host = s.host := rfl
@[simp] theorem doSettleRx_dev : (doSettleRx s).dev = s.dev := rfl
@[simp] theorem doSettleRx_draws : (doSettleRx s).draws = s.draws := rfl

/-! ### `doDrain` -/

@[simp] theorem doDrain_cfg : (doDrain s).cfg = s.cfg := rfl
@[simp] theorem doDrain_acc : (doDrain s).acc = s.acc := rfl
@[simp] theorem doDrain_cnt : (doDrain s).cnt = s.cnt := rfl
@[simp] theorem doDrain_lrc : (doDrain s).lrc = s.lrc := rfl
@[simp] theorem doDrain_pos : (doDrain s).pos = s.pos := rfl
@[simp] theorem doDrain_lastnz : (doDrain s).lastnz = s.lastnz := rfl
@[simp] theorem doDrain_in0 : (doDrain s).in0 = s.in0 := rfl
@[simp] theorem doDrain_in1 : (doDrain s).in1 = s.in1 := rfl
@[simp] theorem doDrain_in2 : (doDrain s).in2 = s.in2 := rfl
@[simp] theorem doDrain_out0 : (doDrain s).out0 = s.out0 := rfl
@[simp] theorem doDrain_out1 : (doDrain s).out1 = s.out1 := rfl
@[simp] theorem doDrain_out2 : (doDrain s).out2 = s.out2 := rfl
@[simp] theorem doDrain_rxbuf : (doDrain s).rxbuf = s.rxbuf ++ s.rxf.take s.cfg.drainMax := rfl
@[simp] theorem doDrain_rsp : (doDrain s).rsp = s.rsp := rfl
@[simp] theorem doDrain_txs : (doDrain s).txs = s.txs := rfl
@[simp] theorem doDrain_rxf : (doDrain s).rxf = s.rxf.drop s.cfg.drainMax := rfl
@[simp] theorem doDrain_linkOpen : (doDrain s).linkOpen = s.linkOpen := rfl
@[simp] theorem doDrain_tstate : (doDrain s).tstate = .parse := rfl
@[simp] theorem doDrain_opsel : (doDrain s).opsel = s.opsel := rfl
@[simp] theorem doDrain_busy : (doDrain s).busy = s.busy := rfl
@[simp] theorem doDrain_mstep : (doDrain s).mstep = s.mstep := rfl
@[simp] theorem doDrain_tmr : (doDrain s).tmr = s.tmr := rfl
@[simp] theorem doDrain_err : (doDrain s).err = s.err := rfl
@[simp] theorem doDrain_host : (doDrain s).host = s.host := rfl
@[simp] theorem doDrain_dev : (doDrain s).dev = s.dev := rfl
@[simp] theorem doDrain_draws : (doDrain s).draws = s.draws := rfl

/-! ### `discardPackRegs` -/

@[simp] theorem discardPackRegs_cfg : (discardPackRegs s).cfg = s.cfg := rfl
@[simp] theorem discardPackRegs_pos : (discardPackRegs s).pos = s.pos := rfl
@[simp] theorem discardPackRegs_lastnz : (discardPackRegs s).lastnz = s.lastnz := rfl
@[simp] theorem discardPackRegs_in0 : (discardPackRegs s).in0 = s.in0 := rfl
@[simp] theorem discardPackRegs_in1 : (discardPackRegs s).in1 = s.in1 := rfl
@[simp] theorem discardPackRegs_in2 : (discardPackRegs s).in2 = s.in2 := rfl
@[simp] theorem discardPackRegs_out0 : (discardPackRegs s).out0 = s.out0 := rfl
@[simp] theorem discardPackRegs_out1 : (discardPackRegs s).out1 = s.out1 := rfl
@[simp] theorem discardPackRegs_out2 : (discardPackRegs s).out2 = s.out2 := rfl
@[simp] theorem discardPackRegs_rxbuf : (discardPackRegs s).rxbuf = s.rxbuf := rfl
@[simp] theorem discardPackRegs_rsp : (discardPackRegs s).rsp = s.rsp := rfl
@[simp] theorem discardPackRegs_txs : (discardPackRegs s).txs = s.txs := rfl
@[simp] theorem discardPackRegs_rxf : (discardPackRegs s).rxf = s.rxf := rfl
@[simp] theorem discardPackRegs_linkOpen : (discardPackRegs s).linkOpen = s.linkOpen := rfl
@[simp] theorem discardPackRegs_tstate : (discardPackRegs s).tstate = s.tstate := rfl
@[simp] theorem discardPackRegs_opsel : (discardPackRegs s).opsel = s.opsel := rfl
@[simp] theorem discardPackRegs_busy : (discardPackRegs s).busy = s.busy := rfl
@[simp] theorem discardPackRegs_mstep : (discardPackRegs s).mstep = s.mstep := rfl
@[simp] theorem discardPackRegs_tmr : (discardPackRegs s).tmr = s.tmr := rfl
@[simp] theorem discardPackRegs_err : (discardPackRegs s).err = s.err := rfl
@[simp] theorem discardPackRegs_host : (discardPackRegs s).host = s.host := rfl
@[simp] theorem discardPackRegs_dev : (discardPackRegs s).dev = s.dev := rfl
@[simp] theorem discardPackRegs_draws : (discardPackRegs s).draws = s.draws + 1 := rfl

/-! ### `discardUnpackRegs` -/

@[simp] theorem discardUnpackRegs_cfg : (discardUnpackRegs s).cfg = s.cfg := rfl
@[simp] theorem discardUnpackRegs_in0 : (discardUnpackRegs s).in0 = s.in0 := rfl
@[simp] theorem discardUnpackRegs_in1 : (discardUnpackRegs s).in1 = s.in1 := rfl
@[simp] theorem discardUnpackRegs_in2 : (discardUnpackRegs s).in2 = s.in2 := rfl
@[simp] theorem discardUnpackRegs_out0 : (discardUnpackRegs s).out0 = s.out0 := rfl
@[simp] theorem discardUnpackRegs_out1 : (discardUnpackRegs s).out1 = s.out1 := rfl
@[simp] theorem discardUnpackRegs_out2 : (discardUnpackRegs s).out2 = s.out2 := rfl
@[simp] theorem discardUnpackRegs_rxbuf : (discardUnpackRegs s).rxbuf = s.rxbuf := rfl
@[simp] theorem discardUnpackRegs_rsp : (discardUnpackRegs s).rsp = s.rsp := rfl
@[simp] theorem discardUnpackRegs_txs : (discardUnpackRegs s).txs = s.txs := rfl
@[simp] theorem discardUnpackRegs_rxf : (discardUnpackRegs s).rxf = s.rxf := rfl
@[simp] theorem discardUnpackRegs_linkOpen : (discardUnpackRegs s).linkOpen = s.linkOpen := rfl
@[simp] theorem discardUnpackRegs_tstate : (discardUnpackRegs s).tstate = s.tstate := rfl
@[simp] theorem discardUnpackRegs_opsel : (discardUnpackRegs s).opsel = s.opsel := rfl
@[simp] theorem discardUnpackRegs_busy : (discardUnpackRegs s).busy = s.busy := rfl
@[simp] theorem discardUnpackRegs_mstep : (discardUnpackRegs s).mstep = s.mstep := rfl
@[simp] theorem discardUnpackRegs_tmr : (discardUnpackRegs s).tmr = s.tmr := rfl
@[simp] theorem discardUnpackRegs_err : (discardUnpackRegs s).err = s.err := rfl
@[simp] theorem discardUnpackRegs_host : (discardUnpackRegs s).host = s.host := rfl
@[simp] theorem discardUnpackRegs_dev : (discardUnpackRegs s).dev = s.dev := rfl
@[simp] theorem discardUnpackRegs_draws : (discardUnpackRegs s).draws = s.draws + 1 := rfl

/-! ### `arrive` -/

@[simp] theorem arrive_cfg : (arrive s).cfg = s.cfg := by unfold arrive; cases s.dev <;> rfl
@[simp] theorem arrive_acc : (arrive s).acc = s.acc := by unfold arrive; cases s.dev <;> rfl
@[simp] theorem arrive_cnt : (arrive s).cnt = s.cnt := by unfold arrive; cases s.dev <;> rfl
@[simp] theorem arrive_lrc : (arrive s).lrc = s.lrc := by unfold arrive; cases s.dev <;> rfl
@[simp] theorem arrive_pos : (arrive s).pos = s.pos := by unfold arrive; cases s.dev <;> rfl
@[simp] theorem arrive_lastnz : (arrive s).lastnz = s.lastnz := by unfold arrive; cases s.dev <;> rfl
@[simp] theorem arrive_in0 : (arrive s).in0 = s.in0 := by unfold arrive; cases s.dev <;> rfl
@[simp] theorem arrive_in1 : (arrive s).in1 = s.in1 := by unfold arrive; cases s.dev <;> rfl
@[simp] theorem arrive_in2 : (arrive s).in2 = s.in2 := by unfold arrive; cases s.dev <;> rfl
@[simp] theorem arrive_out0 : (arrive s).out0 = s.out0 := by unfold arrive; cases s.dev <;> rfl
@[simp] theorem arrive_out1 : (arrive s).out1 = s.out1 := by unfold arrive; cases s.dev <;> rfl
@[simp] theorem arrive_out2 : (arrive s).out2 = s.out2 := by unfold arrive; cases s.dev <;> rfl
@[simp] theorem arrive_rxbuf : (arrive s).rxbuf = s.rxbuf := by unfold arrive; cases s.dev <;> rfl
@[simp] theorem arrive_rsp : (arrive s).rsp = s.rsp := by unfold arrive; cases s.dev <;> rfl
@[simp] theorem arrive_txs : (arrive s).txs = s.txs := by unfold arrive; cases s.dev <;> rfl
@[simp] theorem arrive_linkOpen : (arrive s).linkOpen = s.linkOpen := by unfold arrive; cases s.dev <;> rfl
@[simp] theorem arrive_tstate : (arrive s).tstate = s.tstate := by unfold arrive; cases s.dev <;> rfl
@[simp] theorem arrive_opsel : (arrive s).opsel = s.opsel := by unfold arrive; cases s.dev <;> rfl
@[simp] theorem arrive_busy : (arrive s).busy = s.busy := by unfold arrive; cases s.dev <;> rfl
@[simp] theorem arrive_mstep : (arrive s).mstep = s.mstep := by unfold arrive; cases s.dev <;> rfl
@[simp] theorem arrive_tmr : (arrive s).tmr = s.tmr := by unfold arrive; cases s.dev <;> rfl
@[simp] theorem arrive_err : (arrive s).err = s.err := by unfold arrive; cases s.dev <;> rfl
@[simp] theorem arrive_host : (arrive s).host = s.host := by unfold arrive; cases s.dev <;> rfl
@[simp] theorem arrive_draws : (arrive s).draws = s.draws := by unfold arrive; cases s.dev <;> rfl

/-! ### `doWaitFirst` -/

@[simp] theorem doWaitFirst_cfg : (doWaitFirst s).cfg = s.cfg := by unfold doWaitFirst linkReadFirst; cases s.rxf <;> rfl
@[simp] theorem doWaitFirst_acc : (doWaitFirst s).acc = s.acc := by unfold doWaitFirst linkReadFirst; cases s.rxf <;> rfl
@[simp] theorem doWaitFirst_cnt : (doWaitFirst s).cnt = s.cnt := by unfold doWaitFirst linkReadFirst; cases s.rxf <;> rfl
@[simp] theorem doWaitFirst_lrc : (doWaitFirst s).lrc = s.lrc := by unfold doWaitFirst linkReadFirst; cases s.rxf <;> rfl
@[simp] theorem doWaitFirst_pos : (doWaitFirst s).pos = s.pos := by unfold doWaitFirst linkReadFirst; cases s.rxf <;> rfl
@[simp] theorem doWaitFirst_lastnz : (doWaitFirst s).lastnz = s.lastnz := by unfold doWaitFirst linkReadFirst; cases s.rxf <;> rfl
@[simp] theorem doWaitFirst_in0 : (doWaitFirst s).in0 = s.in0 := by unfold doWaitFirst linkReadFirst; cases s.rxf <;> rfl
@[simp] theorem doWaitFirst_in1 : (doWaitFirst s).in1 = s.in1 := by unfold doWaitFirst linkReadFirst; cases s.rxf <;> rfl
@[simp] theorem doWaitFirst_in2 : (doWaitFirst s).in2 = s.in2 := by unfold doWaitFirst linkReadFirst; cases s.rxf <;> rfl
@[simp] theorem doWaitFirst_out0 : (doWaitFirst s).out0 = s.out0 := by unfold doWaitFirst linkReadFirst; cases s.rxf <;> rfl
@[simp] theorem doWaitFirst_out1 : (doWaitFirst s).out1 = s.out1 := by unfold doWaitFirst linkReadFirst; cases s.rxf <;> rfl
@[simp] theorem doWaitFirst_out2 : (doWaitFirst s).out2 = s.out2 := by unfold doWaitFirst linkReadFirst; cases s.rxf <;> rfl
@[simp] theorem doWaitFirst_rsp : (doWaitFirst s).rsp = s.rsp := by unfold doWaitFirst linkReadFirst; cases s.rxf <;> rfl
@[simp] theorem doWaitFirst_txs : (doWaitFirst s).txs = s.txs := by unfold doWaitFirst linkReadFirst; cases s.rxf <;> rfl
@[simp] theorem doWaitFirst_linkOpen : (doWaitFirst s).linkOpen = s.linkOpen := by unfold doWaitFirst linkReadFirst; cases s.rxf <;> rfl
@[simp] theorem doWaitFirst_opsel : (doWaitFirst s).opsel = s.opsel := by unfold doWaitFirst linkReadFirst; cases s.rxf <;> rfl
@[simp] theorem doWaitFirst_busy : (doWaitFirst s).busy = s.busy := by unfold doWaitFirst linkReadFirst; cases s.rxf <;> rfl
@[simp] theorem doWaitFirst_mstep : (doWaitFirst s).mstep = s.mstep := by unfold doWaitFirst linkReadFirst; cases s.rxf <;> rfl
@[simp] theorem doWaitFirst_err : (doWaitFirst s).err = s.err := by unfold doWaitFirst linkReadFirst; cases s.rxf <;> rfl
@[simp] theorem doWaitFirst_host : (doWaitFirst s).host = s.host := by unfold doWaitFirst linkReadFirst; cases s.rxf <;> rfl
@[simp] theorem doWaitFirst_dev : (doWaitFirst s).dev = s.dev := by unfold doWaitFirst linkReadFirst; cases s.rxf <;> rfl
@[simp] theorem doWaitFirst_draws : (doWaitFirst s).draws = s.draws := by unfold doWaitFirst linkReadFirst; cases s.rxf <;> rfl

/-! ### `doParse` -/

@[simp] theorem doParse_cfg : (doParse s).cfg = s.cfg := by unfold doParse; cases parseResponse s.cfg s.rxbuf <;> rfl
@[simp] theorem doParse_acc : (doParse s).acc = s.acc := by unfold doParse; cases parseResponse s.cfg s.rxbuf <;> rfl
@[simp] theorem doParse_cnt : (doParse s).cnt = s.cnt := by unfold doParse; cases parseResponse s.cfg s.rxbuf <;> rfl
@[simp] theorem doParse_lrc : (doParse s).lrc = s.lrc := by unfold doParse; cases parseResponse s.cfg s.rxbuf <;> rfl
@[simp] theorem doParse_pos : (doParse s).pos = s.pos := by unfold doParse; cases parseResponse s.cfg s.rxbuf <;> rfl
@[simp] theorem doParse_lastnz : (doParse s).lastnz = s.lastnz := by unfold doParse; cases parseResponse s.cfg s.rxbuf <;> rfl
@[simp] theorem doParse_in0 : (doParse s).in0 = s.in0 := by unfold doParse; cases parseResponse s.cfg s.rxbuf <;> rfl
@[simp] theorem doParse_in1 : (doParse s).in1 = s.in1 := by unfold doParse; cases parseResponse s.cfg s.rxbuf <;> rfl
@[simp] theorem doParse_in2 : (doParse s).in2 = s.in2 := by unfold doParse; cases parseResponse s.cfg s.rxbuf <;> rfl
@[simp] theorem doParse_out0 : (doParse s).out0 = s.out0 := by unfold doParse; cases parseResponse s.cfg s.rxbuf <;> rfl
@[simp] theorem doParse_out1 : (doParse s).out1 = s.out1 := by unfold doParse; cases parseResponse s.cfg s.rxbuf <;> rfl
@[simp] theorem doParse_out2 : (doParse s).out2 = s.out2 := by unfold doParse; cases parseResponse s.cfg s.rxbuf <;> rfl
@[simp] theorem doParse_rxbuf : (doParse s).rxbuf = s.rxbuf := by unfold doParse; cases parseResponse s.cfg s.rxbuf <;> rfl
@[simp] theorem doParse_txs : (doParse s).txs = s.txs := by unfold doParse; cases parseResponse s.cfg s.rxbuf <;> rfl
@[simp] theorem doParse_rxf : (doParse s).rxf = s.rxf := by unfold doParse; cases parseResponse s.cfg s.rxbuf <;> rfl
@[simp] theorem doParse_linkOpen : (doParse s).linkOpen = s.linkOpen := by unfold doParse; cases parseResponse s.cfg s.rxbuf <;> rfl
@[simp] theorem doParse_opsel : (doParse s).opsel = s.opsel := by unfold doParse; cases parseResponse s.cfg s.rxbuf <;> rfl
@[simp] theorem doParse_busy : (doParse s).busy = s.busy := by unfold doParse; cases parseResponse s.cfg s.rxbuf <;> rfl
@[simp] theorem doParse_mstep : (doParse s).mstep = s.mstep := by unfold doParse; cases parseResponse s.cfg s.rxbuf <;> rfl
@[simp] theorem doParse_tmr : (doParse s).tmr = s.tmr := by unfold doParse; cases parseResponse s.cfg s.rxbuf <;> rfl
@[simp] theorem doParse_err : (doParse s).err = s.err := by unfold doParse; cases parseResponse s.cfg s.rxbuf <;> rfl
@[simp] theorem doParse_host : (doParse s).host = s.host := by unfold doParse; cases parseResponse s.cfg s.rxbuf <;> rfl
@[simp] theorem doParse_dev : (doParse s).dev = s.dev := by unfold doParse; cases parseResponse s.cfg s.rxbuf <;> rfl
@[simp] theorem doParse_draws : (doParse s).draws = s.draws := by unfold doParse; cases parseResponse s.cfg s.rxbuf <;> rfl

end Sys2Proof.Laws
end

