-- ==== Sys2Proof/Laws/Ops.lean ====
section
/-! SUPPORT. What each shared operation can do, said once: the sequence operations of R9, the arrival of device bytes, the
link primitives, taking up an operation, the status check, error entry, the host's acts. -/

namespace Sys2Proof.Laws
open Sys2Proof.Machine

/-! ### Sequences -/

theorem slice_length (S : Bytes) (a b : Nat) : (slice S a b).length = min (b - a) (S.length - a) := by
  simp [slice]

theorem slice_append_left (X Y : Bytes) (a b : Nat) (h : X.length = a) (hb : b ≤ a + Y.length) :
    slice (X ++ Y) a b = Y.take (b - a) := by
  subst h
  simp [slice]

/-- `rindex` finds nothing exactly when the value does not occur. -/
theorem rindex_eq_none_iff (v : Byte) (S : Bytes) : rindex v S = none ↔ v ∉ S := by
  induction S with
  | nil => simp [rindex]
  | cons b S ih =>
    cases h : rindex v S with
    | some i => simp_all [rindex]
    | none =>
      have hS := ih.mp h
      by_cases hb : b = v
      · simp [rindex, h, hb]
      · simp [rindex, h, hb, hS, Ne.symm hb]

/-- `rindex` finds the last occurrence: the sequence splits there, and the value does not occur after it (R9). -/
theorem rindex_eq_some_iff (v : Byte) (S : Bytes) (p : Nat) :
    rindex v S = some p ↔ ∃ X Y, S = X ++ v :: Y ∧ X.length = p ∧ v ∉ Y := by
  induction S generalizing p with
  | nil => simp [rindex]
  | cons b S ih =>
    cases h : rindex v S with
    | some i =>
      obtain ⟨X, Y, rfl, rfl, hY⟩ := (ih i).mp h
      simp only [rindex, h, Option.some.injEq]
      constructor
      · rintro rfl
        exact ⟨b :: X, Y, rfl, rfl, hY⟩
      · rintro ⟨X', Y', he, rfl, hY'⟩
        cases X' with
        | nil =>
          simp only [List.nil_append, List.cons.injEq] at he
          exact absurd (he.2 ▸ by simp) hY'
        | cons x X' =>
          simp only [List.cons_append, List.cons.injEq] at he
          have := (ih X'.length).mpr ⟨X', Y', he.2, rfl, hY'⟩
          rw [h] at this
          simpa using this
    | none =>
      have hS := (rindex_eq_none_iff v S).mp h
      simp only [rindex, h]
      constructor
      · intro hp
        split at hp
        · next hb =>
          obtain rfl : p = 0 := by simpa using hp.symm
          exact ⟨[], S, by simp [hb], rfl, hS⟩
        · cases hp
      · rintro ⟨X', Y', he, rfl, -⟩
        cases X' with
        | nil => simp_all
        | cons x X' =>
          simp only [List.cons_append, List.cons.injEq] at he
          simp [he.2] at hS

/-- `find2From` finds the least match in its range. -/
theorem find2From_eq_some_iff (S : Bytes) (a b : Byte) (e q n i : Nat) :
    find2From S a b e q n = some i ↔
      (q ≤ i ∧ i < q + n ∧ i + 1 < e ∧ S[i]? = some a ∧ S[i + 1]? = some b) ∧
      ∀ j, q ≤ j → j < i → ¬(j + 1 < e ∧ S[j]? = some a ∧ S[j + 1]? = some b) := by
  induction n generalizing q with
  | zero =>
    simp only [find2From, reduceCtorEq, false_iff]
    rintro ⟨⟨h1, h2, -⟩, -⟩
    omega
  | succ n ih =>
    simp only [find2From]
    split
    · next h =>
      constructor
      · intro hq
        obtain rfl : q = i := by simpa using hq
        exact ⟨⟨le_refl _, by omega, h⟩, fun j h1 h2 => by omega⟩
      · rintro ⟨⟨h1, h2, h3⟩, hmin⟩
        by_contra hne
        exact hmin q (le_refl _) (by simp at hne; omega) h
    · next h =>
      rw [ih]
      constructor
      · rintro ⟨⟨h1, h2, h3⟩, hmin⟩
        refine ⟨⟨by omega, by omega, h3⟩, fun j hj1 hj2 => ?_⟩
        by_cases hjq : j = q
        · exact hjq ▸ h
        · exact hmin j (by omega) hj2
      · rintro ⟨⟨h1, h2, h3⟩, hmin⟩
        have : i ≠ q := fun he => h (he ▸ h3)
        exact ⟨⟨by omega, by omega, h3⟩, fun j hj1 hj2 => hmin j (by omega) hj2⟩

/-- `find2(S, a, b, q, e)` is the least `i ≥ q` with `i + 1 < e` where the two bytes stand (R9). -/
theorem find2_eq_some_iff (S : Bytes) (a b : Byte) (q e i : Nat) :
    find2 S a b q e = some i ↔
      (q ≤ i ∧ i + 1 < e ∧ S[i]? = some a ∧ S[i + 1]? = some b) ∧
      ∀ j, q ≤ j → j < i → ¬(S[j]? = some a ∧ S[j + 1]? = some b) := by
  rw [find2, find2From_eq_some_iff]
  constructor
  · rintro ⟨⟨h1, h2, h3, h4⟩, hmin⟩
    exact ⟨⟨h1, h3, h4⟩, fun j hj1 hj2 hj => hmin j hj1 hj2 ⟨by omega, hj⟩⟩
  · rintro ⟨⟨h1, h3, h4⟩, hmin⟩
    exact ⟨⟨h1, by omega, h3, h4⟩, fun j hj1 hj2 hj => hmin j hj1 hj2 hj.2⟩

/-- `find2` finds nothing exactly when there is no match. -/
theorem find2_eq_none_iff (S : Bytes) (a b : Byte) (q e : Nat) :
    find2 S a b q e = none ↔ ∀ i, q ≤ i → i + 1 < e → ¬(S[i]? = some a ∧ S[i + 1]? = some b) := by
  rw [Option.eq_none_iff_forall_ne_some]
  constructor
  · intro h
    by_contra hex
    push Not at hex
    have hP : ∃ i, q ≤ i ∧ i + 1 < e ∧ S[i]? = some a ∧ S[i + 1]? = some b := by
      obtain ⟨i, h1, h2, h3⟩ := hex
      exact ⟨i, h1, h2, h3⟩
    classical
    have hs := Nat.find_spec hP
    refine h (Nat.find hP) ((find2_eq_some_iff ..).mpr ⟨hs, fun j hj1 hj2 hj => ?_⟩)
    exact Nat.find_min hP hj2 ⟨hj1, by omega, hj⟩
  · intro h i hi
    obtain ⟨⟨h1, h2, h3⟩, -⟩ := (find2_eq_some_iff ..).mp hi
    exact h i h1 h2 h3

/-! ### The device and the link -/

/-- The device's next bytes join the end of `RXF` (R23, R161). -/
@[simp] theorem arrive_rxf (s : State) : (arrive s).rxf = s.rxf ++ s.dev.headD [] := by
  unfold arrive
  cases s.dev <;> simp

/-- One entry of the device's plan is used up. -/
@[simp] theorem arrive_dev (s : State) : (arrive s).dev = s.dev.tail := by
  unfold arrive
  cases h : s.dev <;> simp [h]

/-- An arrival is one update of `RXF` and the device's plan. -/
theorem arrive_eq (s : State) : arrive s = { s with rxf := s.rxf ++ s.dev.headD [], dev := s.dev.tail } := by
  cases s with
  | mk _ _ _ _ _ _ _ _ _ _ _ _ _ _ _ _ _ _ _ _ _ _ _ _ dev _ => cases dev <;> simp [arrive]

/-- `LinkReadFirst` (R52): nothing from an empty FIFO, else the front byte, removed. -/
theorem linkReadFirst_cases (s : State) :
    (s.rxf = [] ∧ linkReadFirst s = (none, s)) ∨
    ∃ v rest, s.rxf = v :: rest ∧ linkReadFirst s = (some v, { s with rxf := rest }) := by
  unfold linkReadFirst
  cases h : s.rxf with
  | nil => exact .inl ⟨rfl, rfl⟩
  | cons v rest => exact .inr ⟨v, rest, rfl, rfl⟩

/-! ### Taking up an operation and ending it -/

/-- A request is taken up (R205). -/
theorem start_of_accepted {op : OpSel} {f : Bool} {s : State} (body : State → Result)
    (ho : s.linkOpen = true) (hb : s.busy = false) (hf : f = true) : start op f s body = body (accept op s) := by
  simp [start, ho, hb, hf]

/-- All that taking up a request can do: nothing, or the body on the accepted state. -/
theorem start_cases (op : OpSel) (f : Bool) (s : State) (body : State → Result) :
    (¬(s.linkOpen = true ∧ s.busy = false ∧ f = true) ∧ start op f s body = .next s) ∨
    ((s.linkOpen = true ∧ s.busy = false ∧ f = true) ∧ start op f s body = body (accept op s)) := by
  unfold start
  cases s.linkOpen <;> cases s.busy <;> cases f <;> simp

/-- All that the status check can do (R167). -/
theorem check_cases (arg : Byte) (s : State) (k : State → Result) :
    (s.rsp.status = s.cfg.stOK ∧ check arg s k = k s) ∨
    (s.rsp.status ≠ s.cfg.stOK ∧ check arg s k = .next (raise (.deviceStatus s.rsp.status arg) s)) := by
  unfold check raised
  split
  · next h => exact .inl ⟨h, rfl⟩
  · next h => exact .inr ⟨h, rfl⟩

/-- What an error entry leaves is a whole record of the operation in progress (R191, R199). -/
theorem errRegs_kind_ne_none (op : OpSel) (e : Err) : (errRegs op e).kind ≠ .none := by
  cases e <;> simp [errRegs]

theorem errRegs_op (op : OpSel) (e : Err) : (errRegs op e).op = op := by
  cases e <;> rfl

/-- The error a check may raise, or a timeout, or a framing error, is a well-formed record; a precondition error is one
when it names 0 or a strip. -/
theorem errRegs_wf (c : Config) (op : OpSel) (e : Err)
    (h : ∀ st arg, e = .deviceStatus st arg → st ≠ c.stOK) (hp : ∀ k, e = .precondition k → k.toNat ≤ 3) :
    (errRegs op e).wf c := by
  cases e with
  | timeout => simp [errRegs, ErrRegs.wf]
  | framing o r => simp [errRegs, ErrRegs.wf]
  | deviceStatus st arg => simpa [errRegs, ErrRegs.wf] using h st arg rfl
  | precondition k => simpa [errRegs, ErrRegs.wf] using hp k rfl

/-! ### The host's side -/

/-- All that filling an operand buffer can do (R20): nothing, or one buffer replaced by bytes that fit. -/
theorem loadOperand_cases (k : Fin 3) (b : Bytes) (p : Bool) (s : State) :
    loadOperand k b p s = s ∨
    (b.length ≤ s.cfg.bufMax ∧
      (loadOperand k b p s = { s with in0 := ⟨b, p⟩ } ∨ loadOperand k b p s = { s with in1 := ⟨b, p⟩ } ∨
        loadOperand k b p s = { s with in2 := ⟨b, p⟩ })) := by
  unfold loadOperand
  split
  · next h =>
    simp only [Bool.and_eq_true, fits_iff] at h
    refine .inr ⟨h.2, ?_⟩
    match k with
    | 0 => exact .inl rfl
    | 1 => exact .inr (.inl rfl)
    | 2 => exact .inr (.inr rfl)
  · exact .inl rfl

/-- An idle step moves at most device bytes. -/
theorem idleStep_cases (s : State) :
    idleStep s = arrive s ∨ idleStep s = { s with dev := s.dev.tail } := by
  unfold idleStep
  split
  · exact .inl rfl
  · exact .inr rfl

end Sys2Proof.Laws
end

