-- ==== Sys2Proof/Laws/Codecs.lean ====
section
/-! SUPPORT. What the checks of the two datablock decoders can do (spec/41_iso_codec.md R116, spec/42_raw_codec.md R132),
and the raw encoder's one failure (R128). -/

namespace Sys2Proof.Laws
open Sys2Proof.Machine

/-- The four-byte header check passes exactly when every byte is there (R116, check 2). -/
theorem firstMismatch_eq_none_iff (B : Bytes) (i : Nat) (H : Bytes) :
    firstMismatch B i H = none ↔ ∀ j, j < H.length → B[i + j]? = H[j]? := by
  induction H generalizing i with
  | nil => simp [firstMismatch]
  | cons h H ih =>
    unfold firstMismatch
    split
    · next hi =>
      rw [ih]
      constructor
      · intro hall j hj
        cases j with
        | zero => simpa using hi
        | succ j =>
          have := hall j (by simpa using hj)
          rw [show i + (j + 1) = i + 1 + j by omega]
          simpa using this
      · intro hall j hj
        have := hall (j + 1) (by simpa using hj)
        rw [show i + 1 + j = i + (j + 1) by omega]
        simpa using this
    · next hi =>
      simp only [reduceCtorEq, false_iff]
      intro hall
      exact hi (by simpa using hall 0 (by simp))

/-- `expect(i, v)` passes or gives its index (R132). -/
theorem expectByte_cases (B : Bytes) (i : Nat) (v : Byte) :
    (B[i]? = some v ∧ expectByte B i v = .ok ()) ∨ (B[i]? ≠ some v ∧ expectByte B i v = .error i) := by
  unfold expectByte
  split
  · next h => exact .inl ⟨h, rfl⟩
  · next h => exact .inr ⟨h, rfl⟩

/-- Everything a segment's decoding can do (R132): its marker, its length byte, its bytes are there, or the offset of what
is missing or wrong. -/
theorem rawDecodeSegment_cases (c : Config) (B : Bytes) (k : Byte) (q : Nat) :
    (B[q]? ≠ some c.esc ∧ rawDecodeSegment c B k q = .error q) ∨
    (B[q]? = some c.esc ∧ B[q + 1]? ≠ some k ∧ rawDecodeSegment c B k q = .error (q + 1)) ∨
    (B[q]? = some c.esc ∧ B[q + 1]? = some k ∧ B[q + 2]? = none ∧ rawDecodeSegment c B k q = .error (q + 2)) ∨
    (∃ len, B[q]? = some c.esc ∧ B[q + 1]? = some k ∧ B[q + 2]? = some len ∧ B.length < q + 3 + len.toNat ∧
      rawDecodeSegment c B k q = .error B.length) ∨
    (∃ len, B[q]? = some c.esc ∧ B[q + 1]? = some k ∧ B[q + 2]? = some len ∧ q + 3 + len.toNat ≤ B.length ∧
      rawDecodeSegment c B k q = .ok (slice B (q + 3) (q + 3 + len.toNat), q + 3 + len.toNat)) := by
  unfold rawDecodeSegment
  rcases expectByte_cases B q c.esc with ⟨h0, e0⟩ | ⟨h0, e0⟩
  · rcases expectByte_cases B (q + 1) k with ⟨h1, e1⟩ | ⟨h1, e1⟩
    · cases h2 : B[q + 2]? with
      | none => simp [e0, e1, h0, h1, bind, Except.bind]
      | some len =>
        rcases Nat.lt_or_ge B.length (q + 3 + len.toNat) with h3 | h3
        · simp [e0, e1, h0, h1, h3, bind, Except.bind]
        · simp [e0, e1, h0, h1, h3, Nat.not_lt.mpr h3, bind, Except.bind]
    · simp [e0, e1, h0, h1, bind, Except.bind]
  · simp [e0, h0, bind, Except.bind]

/-- A decoded strip is at most 255 bytes (R72). -/
theorem rawDecodeSegment_length {c : Config} {B : Bytes} {k : Byte} {q q' : Nat} {p : Bytes}
    (h : rawDecodeSegment c B k q = .ok (p, q')) : p.length ≤ 255 := by
  rcases rawDecodeSegment_cases c B k q with ⟨-, e⟩ | ⟨-, -, e⟩ | ⟨-, -, -, e⟩ | ⟨_, -, -, -, -, e⟩ | ⟨len, -, -, -, -, e⟩ <;>
    rw [e] at h
  · cases h
  · cases h
  · cases h
  · cases h
  · cases h
    have := len.isLt
    rw [slice_length]
    omega

/-- No strip is too long exactly when each has at most 255 bytes (R128). -/
theorem firstTooLong_eq_none_iff (p1 p2 p3 : Bytes) :
    firstTooLong p1 p2 p3 = none ↔ p1.length ≤ 255 ∧ p2.length ≤ 255 ∧ p3.length ≤ 255 := by
  unfold firstTooLong
  split
  · simp; omega
  · split
    · simp; omega
    · split
      · simp; omega
      · simp; omega

/-- The strip that has no encoding is numbered 1 to 3 (R128). -/
theorem firstTooLong_le {p1 p2 p3 : Bytes} {k : Byte} (h : firstTooLong p1 p2 p3 = some k) : k.toNat ≤ 3 := by
  unfold firstTooLong at h
  split at h
  · cases h; decide
  · split at h
    · cases h; decide
    · split at h
      · cases h; decide
      · cases h

/-- All that ISODEC inside an operation can do (R116). -/
theorem isoDecodeTo_cases (B : Bytes) (s : State) :
    (∃ o1 o2 o3, isoDecode s.cfg B = .ok (o1, o2, o3) ∧ isoDecodeTo B s =
      .next (complete { s with out0 := OutBuf.ofStrip o1, out1 := OutBuf.ofStrip o2, out2 := OutBuf.ofStrip o3 })) ∨
    (∃ offset, isoDecode s.cfg B = .error offset ∧ isoDecodeTo B s = .next (raise (.framing offset B) s)) := by
  unfold isoDecodeTo
  cases h : isoDecode s.cfg B with
  | ok v =>
    obtain ⟨o1, o2, o3⟩ := v
    exact .inl ⟨o1, o2, o3, rfl, rfl⟩
  | error offset => exact .inr ⟨offset, rfl, rfl⟩

end Sys2Proof.Laws
end

