-- ==== Sys2Proof/Laws/Packer.lean ====
section
/-! SUPPORT. What the packer's shared operations can do: the precondition check, the two inner loops as arithmetic on
`ACC` and `CNT`, and PACK and UNPACK inside an operation. -/

namespace Sys2Proof.Laws
open Sys2Proof.Machine

/-- The preconditions of R91. -/
theorem packerPre_iff (A : Bytes) (w ow : Nat) :
    packerPre A w ow = true ↔ 1 ≤ w ∧ w ≤ 6 ∧ 1 ≤ ow ∧ ow ≤ 8 ∧ A.length = 2 ^ w := by
  simp only [packerPre, Bool.and_eq_true, decide_eq_true_eq, beq_iff_eq]
  tauto

/-- PACK's result fits (R205 (c)). -/
theorem packFits_iff (A : Bytes) (w ow : Nat) (s : State) :
    packFits A w ow s = true ↔ (packerPre A w ow = true → packLength s.in0.bytes.length w ow ≤ s.cfg.bufMax) := by
  cases h : packerPre A w ow <;> simp [packFits, h, fits_iff]

/-- UNPACK's result fits (R205 (c)). -/
theorem unpackFits_iff (A : Bytes) (w ow : Nat) (s : State) :
    unpackFits A w ow s = true ↔ (packerPre A w ow = true → unpackLength s.in0.bytes.length w ow ≤ s.cfg.bufMax) := by
  cases h : packerPre A w ow <;> simp [unpackFits, h, fits_iff]

/-! ### PACK's registers -/

theorem lowMask_toNat (ow : Nat) (h : ow ≤ 8) : (lowMask ow).toNat = 2 ^ ow - 1 := by
  have := Nat.pow_le_pow_right (n := 2) (by omega) h
  simp only [lowMask, BitVec.toNat_ofNat]
  omega

/-- The low group of the accumulator. -/
theorem low_group_toNat (a : BitVec 14) (ow : Nat) (h : ow ≤ 8) : (a.setWidth 8 &&& lowMask ow).toNat = a.toNat % 2 ^ ow := by
  rw [BitVec.toNat_and, lowMask_toNat ow h, Nat.and_two_pow_sub_one_eq_mod]
  simp only [BitVec.toNat_setWidth]
  rw [Nat.mod_mod_of_dvd _ (Nat.pow_dvd_pow 2 h)]

/-- One turn of the flush loop: a whole group leaves at the low end, or the loop ends. -/
theorem flushGroups_succ (ow n : Nat) (r : PackRegs) :
    (r.cnt.toNat < ow ∧ flushGroups ow (n + 1) r = r) ∨
    (ow ≤ r.cnt.toNat ∧ flushGroups ow (n + 1) r =
      flushGroups ow n { r with out := r.out ++ [r.acc.setWidth 8 &&& lowMask ow]
                                acc := r.acc >>> ow
                                cnt := BitVec.ofNat 4 (r.cnt.toNat - ow) }) := by
  rcases Nat.lt_or_ge r.cnt.toNat ow with h | h
  · exact .inl ⟨h, by simp [flushGroups, Nat.not_le.mpr h]⟩
  · exact .inr ⟨h, by simp [flushGroups, h]⟩

/-- PACK's flush loop (R93): the whole groups leave, the remainder of `CNT` stays, `LRC` is untouched. -/
theorem flushGroups_cnt (ow : Nat) (h1 : 1 ≤ ow) (n : Nat) (r : PackRegs) (hn : r.cnt.toNat / ow ≤ n) :
    (flushGroups ow n r).cnt.toNat = r.cnt.toNat % ow ∧
    (flushGroups ow n r).acc.toNat = r.acc.toNat / 2 ^ (r.cnt.toNat / ow * ow) ∧
    (flushGroups ow n r).lrc = r.lrc ∧
    (flushGroups ow n r).out.length = r.out.length + r.cnt.toNat / ow := by
  induction n generalizing r with
  | zero =>
    have h0 : r.cnt.toNat / ow = 0 := Nat.le_zero.mp hn
    have hlt : r.cnt.toNat < ow := (Nat.div_eq_zero_iff_lt h1).mp h0
    simp [flushGroups, h0, Nat.mod_eq_of_lt hlt]
  | succ n ih =>
    rcases flushGroups_succ ow n r with ⟨h, he⟩ | ⟨h, he⟩
    · simp [he, Nat.div_eq_of_lt h, Nat.mod_eq_of_lt h]
    · have hlt := r.cnt.isLt
      have hc : (BitVec.ofNat 4 (r.cnt.toNat - ow)).toNat = r.cnt.toNat - ow := by
        rw [BitVec.toNat_ofNat, Nat.mod_eq_of_lt (by omega)]
      have hd : (r.cnt.toNat - ow) / ow + 1 = r.cnt.toNat / ow := by
        rw [Nat.div_eq r.cnt.toNat ow, if_pos ⟨h1, h⟩]
      obtain ⟨a, b, c, d⟩ := ih { r with out := r.out ++ [r.acc.setWidth 8 &&& lowMask ow]
                                         acc := r.acc >>> ow
                                         cnt := BitVec.ofNat 4 (r.cnt.toNat - ow) } (by simp only [hc]; omega)
      simp only [hc] at a b d
      refine ⟨?_, ?_, ?_, ?_⟩
      · rw [he, a, Nat.mod_eq_sub_mod h]
      · rw [he, b, BitVec.toNat_ushiftRight, Nat.shiftRight_eq_div_pow, Nat.div_div_eq_div_mul, ← pow_add, ← hd]
        congr 2
        ring
      · rw [he, c]
      · rw [he, d, ← hd]
        simp
        omega

/-! ### UNPACK's registers -/

/-- One turn of UNPACK's inner loop. -/
theorem takeUnits_succ (A : Bytes) (w n : Nat) (r : UnpackRegs) :
    (r.cnt.toNat < w + 1 ∧ takeUnits A w (n + 1) r = r) ∨
    (w + 1 ≤ r.cnt.toNat ∧ takeUnits A w (n + 1) r = takeUnits A w n (takeUnit A w r)) := by
  rcases Nat.lt_or_ge r.cnt.toNat (w + 1) with h | h
  · exact .inl ⟨h, by simp [takeUnits, Nat.not_le.mpr h]⟩
  · exact .inr ⟨h, by simp [takeUnits, h]⟩

/-- A unit leaves at the top: `w + 1` bits fewer are pending, and the position counts it. -/
theorem takeUnit_cnt (A : Bytes) (w : Nat) (r : UnpackRegs) :
    (takeUnit A w r).cnt.toNat = r.cnt.toNat - (w + 1) ∧ (takeUnit A w r).pos = r.pos + 1 ∧
    (takeUnit A w r).sym.length = r.sym.length + 1 ∧ (takeUnit A w r).mrk.length = r.mrk.length + 1 := by
  have hlt := r.cnt.isLt
  refine ⟨?_, rfl, by simp [takeUnit], by simp [takeUnit]⟩
  simp only [takeUnit, BitVec.toNat_ofNat]
  omega

/-! ### What is left after the operation -/

/-- Whatever the free values are, `ACC < 2^CNT` (R16). -/
theorem discardPackRegs_acc_lt (s : State) : (discardPackRegs s).acc.toNat < 2 ^ (discardPackRegs s).cnt.toNat := by
  have hlt := (Config.freeCnt s.draws).isLt
  have hpow := Nat.pow_le_pow_right (n := 2) (by omega) (show (Config.freeCnt s.draws).val ≤ 14 by omega)
  have hpos := Nat.two_pow_pos (Config.freeCnt s.draws).val
  have hc : (BitVec.ofNat 4 (Config.freeCnt s.draws).val).toNat = (Config.freeCnt s.draws).val := by
    rw [BitVec.toNat_ofNat, Nat.mod_eq_of_lt (by omega)]
  have hm : (BitVec.ofNat 14 (2 ^ (Config.freeCnt s.draws).val - 1)).toNat = 2 ^ (Config.freeCnt s.draws).val - 1 := by
    rw [BitVec.toNat_ofNat, Nat.mod_eq_of_lt (by omega)]
  simp only [discardPackRegs, hc, BitVec.toNat_and, hm, Nat.and_two_pow_sub_one_eq_mod]
  exact Nat.mod_lt _ hpos

/-- The same after an UNPACK, with `POS` and `LASTNZ` within `POSW` bits, all ones being `none` (R18). -/
theorem discardUnpackRegs_bounds (s : State) :
    (discardUnpackRegs s).acc.toNat < 2 ^ (discardUnpackRegs s).cnt.toNat ∧
    (discardUnpackRegs s).pos < 2 ^ s.cfg.posw ∧
    ∀ j, (discardUnpackRegs s).lastnz = some j → j < 2 ^ s.cfg.posw - 1 := by
  refine ⟨discardPackRegs_acc_lt s, Nat.mod_lt _ (Nat.two_pow_pos _), ?_⟩
  intro j hj
  simpa using (Option.mem_filter_iff.mp hj).2

/-! ### Inside an operation -/

/-- All that PACK inside an operation can do. -/
theorem pack_cases (A : Bytes) (w ow : Nat) (S : Bytes) (s : State) (k : Bytes → State → Result) :
    (packerPre A w ow = true ∧
      pack A w ow S s k = k (packRun A w ow S).out (discardPackRegs s)) ∨
    (packerPre A w ow = false ∧ pack A w ow S s k = .next (raise (.precondition 0) s)) := by
  unfold pack raised
  cases h : packerPre A w ow <;> simp

/-- All that UNPACK inside an operation can do. -/
theorem unpack_cases (A : Bytes) (w ow : Nat) (P : Bytes) (s : State) (k : OutBuf → State → Result) :
    (packerPre A w ow = true ∧
      unpack A w ow P s k = k (unpackResult (unpackRun A w ow P)) (discardUnpackRegs s)) ∨
    (packerPre A w ow = false ∧ unpack A w ow P s k = .next (raise (.precondition 0) s)) := by
  unfold unpack raised
  cases h : packerPre A w ow <;> simp

/-- A track of well-formed parameters never violates R91. -/
theorem packerPre_of_track {c : Config} {t : TrackCfg} (h : t.wf c = true) :
    packerPre (alphabet c t.sel) t.codeWidth.toNat t.outputWidth.toNat = true := by
  obtain ⟨a, b, d, e, f, -⟩ := (track_wf_iff c t).mp h
  refine (packerPre_iff ..).mpr ⟨a, b, d, e, ?_⟩
  rw [← f]
  cases t.sel <;> rfl

/-- PACK with a well-formed track always goes on. -/
theorem packTrack_of_wf {t : TrackCfg} {s : State} (h : t.wf s.cfg = true) (S : Bytes) (k : Bytes → State → Result) :
    packTrack t S s k =
      k (packRun (alphabet s.cfg t.sel) t.codeWidth.toNat t.outputWidth.toNat S).out
        (discardPackRegs s) := by
  simp [packTrack, pack, packerPre_of_track h]

/-- UNPACK with a well-formed track always goes on. -/
theorem unpackTrack_of_wf {t : TrackCfg} {s : State} (h : t.wf s.cfg = true) (P : Bytes) (k : OutBuf → State → Result) :
    unpackTrack t P s k =
      k (unpackResult (unpackRun (alphabet s.cfg t.sel) t.codeWidth.toNat t.outputWidth.toNat P))
        (discardUnpackRegs s) := by
  simp [unpackTrack, unpack, packerPre_of_track h]

end Sys2Proof.Laws
end

