-- ==== Sys2Proof/Laws/Transport.lean ====
section
/-! SUPPORT. The transport FSM: what each two-way transition can do, that a transaction ends (R154 (e)), what it leaves
alone, and what can follow it. -/

namespace Sys2Proof.Laws
open Sys2Proof.Machine

/-- `S_WAIT_FIRST` (R148, R149): with `RXF` empty the timer has run out; else exactly the front byte is taken. -/
theorem doWaitFirst_cases (s : State) :
    (s.rxf = [] ∧ doWaitFirst s = { s with tstate := .error, tmr := 0 }) ∨
    ∃ v rest, s.rxf = v :: rest ∧
      doWaitFirst s = { s with rxf := rest, rxbuf := [v], tstate := .settleRx, tmr := s.cfg.tSettleRx } := by
  rcases linkReadFirst_cases s with ⟨h, he⟩ | ⟨v, rest, h, he⟩
  · exact .inl ⟨h, by simp [doWaitFirst, he]⟩
  · exact .inr ⟨v, rest, h, by simp [doWaitFirst, he]⟩

/-- `S_PARSE` (R151). -/
theorem doParse_cases (s : State) :
    (parseResponse s.cfg s.rxbuf = none ∧ doParse s = { s with tstate := .error }) ∨
    ∃ r, parseResponse s.cfg s.rxbuf = some r ∧ doParse s = { s with rsp := r, tstate := .done } := by
  unfold doParse
  cases h : parseResponse s.cfg s.rxbuf with
  | none => exact .inl ⟨rfl, rfl⟩
  | some r => exact .inr ⟨r, rfl, rfl⟩

/-- A parsed response is the buffer cut at its last `ESC` (R66, R157). -/
theorem parseResponse_eq_some_iff (c : Config) (B : Bytes) (r : Response) :
    parseResponse c B = some r ↔ B = r.data ++ c.esc :: r.status :: r.imm ∧ c.esc ∉ r.status :: r.imm := by
  unfold parseResponse
  cases h : rindex c.esc B with
  | none =>
    have hB := (rindex_eq_none_iff _ _).mp h
    simp only [reduceCtorEq, false_iff]
    rintro ⟨rfl, -⟩
    simp at hB
  | some p =>
    obtain ⟨X, Y, rfl, rfl, hY⟩ := (rindex_eq_some_iff _ _ _).mp h
    have hd : (X ++ c.esc :: Y).drop (X.length + 1) = Y := by
      simp [← List.drop_drop]
    have unique : X ++ c.esc :: Y = r.data ++ c.esc :: r.status :: r.imm → c.esc ∉ r.status :: r.imm →
        X = r.data ∧ Y = r.status :: r.imm := by
      intro he hn
      have h1 := (rindex_eq_some_iff _ _ _).mpr ⟨r.data, _, he, rfl, hn⟩
      rw [h] at h1
      obtain ⟨hX, hR⟩ := List.append_inj he (by simpa using h1)
      exact ⟨hX, (List.cons.inj hR).2⟩
    cases Y with
    | nil =>
      simp only [hd, reduceCtorEq, false_iff]
      rintro ⟨he, hn⟩
      exact List.cons_ne_nil _ _ (unique he hn).2.symm
    | cons st imm =>
      simp only [hd, List.take_left', Option.some.injEq]
      constructor
      · rintro rfl
        exact ⟨rfl, hY⟩
      · rintro ⟨he, hn⟩
        obtain ⟨rfl, hR⟩ := unique he hn
        cases r
        simp_all

/-! One step of a run from each state of R145's table, after one arrival. -/

section
variable {C : Bytes} {timeout n : Nat} {s : State}

theorem runTransport_flush (h : s.tstate = .flush) :
    runTransport C timeout (n + 1) s = runTransport C timeout n (doFlush (arrive s)) := by
  simp [runTransport, transition, TState.ended, h]

theorem runTransport_tx (h : s.tstate = .tx) :
    runTransport C timeout (n + 1) s = runTransport C timeout n (doTx C (arrive s)) := by
  simp [runTransport, transition, TState.ended, h]

theorem runTransport_settleTx (h : s.tstate = .settleTx) :
    runTransport C timeout (n + 1) s = runTransport C timeout n (doSettleTx timeout (arrive s)) := by
  simp [runTransport, transition, TState.ended, h]

theorem runTransport_waitFirst (h : s.tstate = .waitFirst) :
    runTransport C timeout (n + 1) s = runTransport C timeout n (doWaitFirst (arrive s)) := by
  simp [runTransport, transition, TState.ended, h]

theorem runTransport_settleRx (h : s.tstate = .settleRx) :
    runTransport C timeout (n + 1) s = runTransport C timeout n (doSettleRx (arrive s)) := by
  simp [runTransport, transition, TState.ended, h]

theorem runTransport_drain (h : s.tstate = .drain) :
    runTransport C timeout (n + 1) s = runTransport C timeout n (doDrain (arrive s)) := by
  simp [runTransport, transition, TState.ended, h]

theorem runTransport_parse (h : s.tstate = .parse) :
    runTransport C timeout (n + 1) s = runTransport C timeout n (doParse (arrive s)) := by
  simp [runTransport, transition, TState.ended, h]

theorem runTransport_ended (h : s.tstate = .done ∨ s.tstate = .error) : runTransport C timeout n s = s := by
  cases n with
  | zero => rfl
  | succ n => rcases h with h | h <;> simp [runTransport, TState.ended, h]

end

/-- The state in which the FSM decides `S_WAIT_FIRST`: flush, write and settle have one outcome each (R145). -/
def atWaitFirst (C : Bytes) (timeout : Nat) (s : State) : State :=
  arrive (doSettleTx timeout (arrive (doTx C (arrive (doFlush (arrive (enterTransaction s)))))))

/-- The state in which the FSM decides `S_PARSE`, after a first byte. -/
def atParse (s : State) : State := arrive (doDrain (arrive (doSettleRx (arrive s))))

/-- A transaction in which no byte came in time (R149), or one that ends in its parse (R148 to R151). -/
theorem transact_cases (C : Bytes) (timeout : Nat) (s : State) :
    ((atWaitFirst C timeout s).rxf = [] ∧
      transact C timeout s = { atWaitFirst C timeout s with tstate := .error, tmr := 0 }) ∨
    ∃ v rest, (atWaitFirst C timeout s).rxf = v :: rest ∧
      transact C timeout s = doParse (atParse (doWaitFirst (atWaitFirst C timeout s))) := by
  have h4 : transact C timeout s = runTransport C timeout 3 (doWaitFirst (atWaitFirst C timeout s)) := by
    unfold transact atWaitFirst
    rw [runTransport_flush (by simp), runTransport_tx (by simp), runTransport_settleTx (by simp),
      runTransport_waitFirst (by simp)]
  rcases doWaitFirst_cases (atWaitFirst C timeout s) with ⟨h, he⟩ | ⟨v, rest, h, he⟩
  · exact .inl ⟨h, by rw [h4, he, runTransport_ended (.inr rfl)]⟩
  · refine .inr ⟨v, rest, h, ?_⟩
    rw [h4, runTransport_settleRx (by simp [he]), runTransport_drain (by simp), runTransport_parse (by simp)]
    rfl

/-- A transaction ends in `S_DONE` or `S_ERROR` (R145, R154 (e)). -/
theorem transact_ends (C : Bytes) (timeout : Nat) (s : State) :
    (transact C timeout s).tstate = .done ∨ (transact C timeout s).tstate = .error := by
  rcases transact_cases C timeout s with ⟨-, he⟩ | ⟨v, rest, -, he⟩
  · exact .inr (by rw [he])
  · rw [he]
    rcases doParse_cases (atParse (doWaitFirst (atWaitFirst C timeout s))) with ⟨-, hp⟩ | ⟨r, -, hp⟩
    · exact .inr (by rw [hp])
    · exact .inl (by rw [hp])

/-- Anything every transition keeps, a transaction keeps. -/
theorem transact_keeps (P : State → Prop) (C : Bytes) (timeout : Nat)
    (hA : ∀ s, P s → P (arrive s)) (hT : ∀ s, P s → P (transition C timeout s)) (hE : ∀ s, P s → P (enterTransaction s))
    (s : State) (h : P s) : P (transact C timeout s) := by
  have run : ∀ n s, P s → P (runTransport C timeout n s) := by
    intro n
    induction n with
    | zero => exact fun s h => h
    | succ n ih =>
      intro s h
      unfold runTransport
      split
      · exact h
      · exact ih _ (hT _ (hA _ h))
  exact run 7 _ (hE _ h)

/-- The fields no transaction writes. -/
structure SameOutside (s t : State) : Prop where
  cfg      : t.cfg = s.cfg
  acc      : t.acc = s.acc
  cnt      : t.cnt = s.cnt
  lrc      : t.lrc = s.lrc
  pos      : t.pos = s.pos
  lastnz   : t.lastnz = s.lastnz
  in0      : t.in0 = s.in0
  in1      : t.in1 = s.in1
  in2      : t.in2 = s.in2
  out0     : t.out0 = s.out0
  out1     : t.out1 = s.out1
  out2     : t.out2 = s.out2
  linkOpen : t.linkOpen = s.linkOpen
  opsel    : t.opsel = s.opsel
  busy     : t.busy = s.busy
  mstep    : t.mstep = s.mstep
  err      : t.err = s.err
  host     : t.host = s.host
  draws    : t.draws = s.draws

theorem SameOutside.refl (s : State) : SameOutside s s := by
  constructor <;> rfl

/-- One transition writes only the transport's own state. -/
theorem transition_sameOutside (C : Bytes) (timeout : Nat) (s t : State) (h : SameOutside s t) :
    SameOutside s (transition C timeout t) := by
  obtain ⟨⟩ := h
  unfold transition
  split <;> constructor <;> simp [*]

/-- A transaction writes only the transport's own state: `RXBUF`, the response registers, the link, `TSTATE`, `TMR`. -/
theorem transact_sameOutside (C : Bytes) (timeout : Nat) (s : State) : SameOutside s (transact C timeout s) := by
  refine transact_keeps (SameOutside s) C timeout ?_ (transition_sameOutside C timeout s) ?_ s (.refl s)
  · rintro t ⟨⟩
    constructor <;> simp [*]
  · rintro t ⟨⟩
    constructor <;> simp [*]

/-- All that can follow a transaction: the operation goes on, or it raises (R152). It never stops. -/
theorem sendWait_cases (C : Bytes) (timeout : Nat) (s : State) (k : State → Result) :
    ((transact C timeout s).tstate = .done ∧
      sendWait C timeout s k = k { transact C timeout s with tstate := .idle }) ∨
    ((transact C timeout s).tstate = .error ∧
      sendWait C timeout s k = .next (raise (transportErr (transact C timeout s)) (transact C timeout s))) := by
  unfold sendWait afterTransaction
  rcases transact_ends C timeout s with h | h
  · exact .inl ⟨h, by simp [h]⟩
  · exact .inr ⟨h, by simp [h, raised]⟩

/-- `transportErr` is a timeout exactly when no byte was received (R149, R151). -/
theorem transportErr_eq (s : State) :
    transportErr s = if s.rxbuf = [] then .timeout else .framing s.rxbuf.length s.rxbuf := by
  unfold transportErr
  cases s.rxbuf <;> simp

end Sys2Proof.Laws
end

