-- ==== Sys2Proof/Laws/Commands.lean ====
section
/-! SUPPORT. What the command sequencer's shared operations can do: a transaction with its status check, and the optional
steps of WRITE_RAW and SET_BPI. -/

namespace Sys2Proof.Laws
open Sys2Proof.Machine

/-- All that a command can do (R152, R167): it goes on after an accepted response, or raises the transport's error, or the
status error with the argument it was given. It never stops. -/
theorem command_cases (C : Bytes) (timeout : Nat) (arg : Byte) (s : State) (k : State → Result) :
    ((transact C timeout s).tstate = .done ∧ (transact C timeout s).rsp.status = s.cfg.stOK ∧
      command C timeout arg s k = k { transact C timeout s with tstate := .idle }) ∨
    ((transact C timeout s).tstate = .done ∧ (transact C timeout s).rsp.status ≠ s.cfg.stOK ∧
      command C timeout arg s k = .next (raise (.deviceStatus (transact C timeout s).rsp.status arg)
        { transact C timeout s with tstate := .idle })) ∨
    ((transact C timeout s).tstate = .error ∧
      command C timeout arg s k = .next (raise (transportErr (transact C timeout s)) (transact C timeout s))) := by
  have hc : (transact C timeout s).cfg = s.cfg := (transact_sameOutside C timeout s).cfg
  unfold command
  rcases sendWait_cases C timeout s (fun s => check arg s k) with ⟨hd, he⟩ | ⟨hd, he⟩
  · rcases check_cases arg { transact C timeout s with tstate := .idle } k with ⟨hs, hk⟩ | ⟨hs, hk⟩
    · exact .inl ⟨hd, hc ▸ hs, by rw [he, hk]⟩
    · exact .inr (.inl ⟨hd, hc ▸ hs, by rw [he, hk]⟩)
  · exact .inr (.inr ⟨hd, he⟩)

/-- A track of WRITE_RAW (R175): nothing for an absent string, PACK for a present one. -/
theorem packOptional_cases (t : TrackCfg) (b : InBuf) (s : State) (k : Bytes → State → Result) :
    (b.present = false ∧ packOptional t b.strip s k = k [] s) ∨
    (b.present = true ∧ packOptional t b.strip s k = packTrack t b.bytes s k) := by
  unfold InBuf.strip packOptional
  cases b.present <;> simp

/-- What SEND leaves alone and what it writes (R143). -/
theorem sendFrame_eq (C : Bytes) (s : State) :
    sendFrame C s = { s with txs := s.txs ++ s.cfg.esc :: C
                             rxf := s.rxf ++ s.dev.headD [] ++ s.dev.tail.headD []
                             dev := s.dev.tail.tail, tstate := .idle, tmr := 0 } := by
  simp [sendFrame, arrive_eq, doTx, linkWrite, frame]

end Sys2Proof.Laws
end

