-- ==== Sys2Proof/Laws/PerInstr.lean ====
section
/-! SUPPORT. One lemma per operation: its encoding is a legal request, an operation select value that R79 assigns, or a
frame of R63 that begins with `ESC` and one of the ten opcodes of R64. -/

namespace Sys2Proof.Laws.EncodesLegally

/-- The encoding of `i` is a legal request, whatever the parameters. -/
def Statement (i : Instr) : Prop :=
  ∀ c : Config, match encode c i with
    | .op code _ => (1 ≤ code.toNat ∧ code.toNat ≤ 0x09) ∨ (0x10 ≤ code.toNat ∧ code.toNat ≤ 0x19)
    | .wire frame => ∃ o p, frame = c.esc :: o :: p ∧ o ∈ c.opcodes

theorem pack (A : Bytes) (w ow : Nat) : Statement (.pack A w ow) := fun _ => by simp [encode]
theorem unpack (A : Bytes) (w ow : Nat) : Statement (.unpack A w ow) := fun _ => by simp [encode]
theorem isoenc : Statement .isoenc := fun _ => by simp [encode]
theorem isodec : Statement .isodec := fun _ => by simp [encode]
theorem rawenc : Statement .rawenc := fun _ => by simp [encode]
theorem rawdec : Statement .rawdec := fun _ => by simp [encode]
theorem send : Statement .send := fun _ => by simp [encode]
theorem sendwait (timeout : Nat) : Statement (.sendwait timeout) := fun _ => by simp [encode]
theorem parse : Statement .parse := fun _ => by simp [encode]
theorem reset : Statement .reset := fun _ => by simp [encode]
theorem readIso : Statement .readIso := fun _ => by simp [encode]
theorem readRaw : Statement .readRaw := fun _ => by simp [encode]
theorem writeIso : Statement .writeIso := fun _ => by simp [encode]
theorem writeRaw : Statement .writeRaw := fun _ => by simp [encode]
theorem erase (t1 t2 t3 : Bool) : Statement (.erase t1 t2 t3) := fun _ => by simp [encode]
theorem setHico : Statement .setHico := fun _ => by simp [encode]
theorem setLoco : Statement .setLoco := fun _ => by simp [encode]
theorem setBpi (m1 m2 m3 : Option Byte) : Statement (.setBpi m1 m2 m3) := fun _ => by simp [encode]
theorem setBpc (b1 b2 b3 : Byte) : Statement (.setBpc b1 b2 b3) := fun _ => by simp [encode]
theorem cmdReset : Statement .cmdReset := fun _ => ⟨_, _, rfl, by simp [Config.opcodes]⟩
theorem cmdReadIso : Statement .cmdReadIso := fun _ => ⟨_, _, rfl, by simp [Config.opcodes]⟩
theorem cmdReadRaw : Statement .cmdReadRaw := fun _ => ⟨_, _, rfl, by simp [Config.opcodes]⟩
theorem cmdWriteIso (block : Bytes) : Statement (.cmdWriteIso block) := fun _ => ⟨_, _, rfl, by simp [Config.opcodes]⟩
theorem cmdWriteRaw (block : Bytes) : Statement (.cmdWriteRaw block) := fun _ => ⟨_, _, rfl, by simp [Config.opcodes]⟩
theorem cmdErase (mask : Byte) : Statement (.cmdErase mask) := fun _ => ⟨_, _, rfl, by simp [Config.opcodes]⟩
theorem cmdSetBpc (b1 b2 b3 : Byte) : Statement (.cmdSetBpc b1 b2 b3) := fun _ => ⟨_, _, rfl, by simp [Config.opcodes]⟩
theorem cmdSetBpi (mode : Byte) : Statement (.cmdSetBpi mode) := fun _ => ⟨_, _, rfl, by simp [Config.opcodes]⟩
theorem cmdSetHico : Statement .cmdSetHico := fun _ => ⟨_, _, rfl, by simp [Config.opcodes]⟩
theorem cmdSetLoco : Statement .cmdSetLoco := fun _ => ⟨_, _, rfl, by simp [Config.opcodes]⟩

end Sys2Proof.Laws.EncodesLegally
end

