-- ==== Sys2Proof/Tests/Slice0.lean ====
section
/-! SUPPORT. Tests: the well-formedness smoke tests, the decoding of a written-out request for every constructor, one or two
small results per operation from spec/95_test_vectors.md (its row named in each comment), and for every statement with
hypotheses a witness that meets them. -/

namespace Sys2Proof.Tests
open Sys2Proof.Machine Sys2Proof.Spec

/-! ### Small states -/

/-- The default parameters with the open ones at small values, so that every test is closed. -/
def cfg0 : Config :=
  { Config.default with
    bufSlack := 0, tShort := 1, tLong := 2, tSettleTx := 3, tSettleRx := 4, markErr := 0x45, markOk := 0x2E }

/-- After reset, with three operands present. -/
def inputs (a b c : Bytes) : State :=
  { State.resetWith cfg0 [] with in0 := ⟨a, true⟩, in1 := ⟨b, true⟩, in2 := ⟨c, true⟩ }

/-- The same, with a device that answers `answer` after the command has been written. -/
def answered (answer a b c : Bytes) : State := { inputs a b c with dev := [[], [], [], answer] }

/-- What a field of the next state is. -/
def after {α : Type} (f : State → α) : Result → Option α
  | .next t => some (f t)
  | .fault _ => none
  | .refused _ => none

/-! ### Well-formedness: each check refuses an ill-formed term -/

theorem test_wf_default : Config.default.wf = true := by decide
theorem test_wf_equal_opcodes : ({ cfg0 with opcErase := cfg0.opcReset } : Config).wf = false := by decide
theorem test_wf_short_alpha1 : ({ cfg0 with alphaT1 := cfg0.alphaT1.take 63 } : Config).wf = false := by decide
theorem test_wf_short_alpha23 : ({ cfg0 with alphaT23 := cfg0.alphaT23.take 15 } : Config).wf = false := by decide
theorem test_wf_track_code_width : ({ cfg0 with track1 := ⟨.t1, 7, 8⟩ } : Config).wf = false := by decide
theorem test_wf_track_no_code_width : ({ cfg0 with track1 := ⟨.t1, 0, 8⟩ } : Config).wf = false := by decide
theorem test_wf_track_output_width : ({ cfg0 with track2 := ⟨.t23, 4, 9⟩ } : Config).wf = false := by decide
theorem test_wf_track_no_output_width : ({ cfg0 with track2 := ⟨.t23, 4, 0⟩ } : Config).wf = false := by decide
theorem test_wf_track_alphabet : ({ cfg0 with track3 := ⟨.t23, 6, 8⟩ } : Config).wf = false := by decide
theorem test_wf_small_drain : ({ cfg0 with drainMax := 778 } : Config).wf = false := by decide
theorem test_wf_erase_mask : Instr.wf cfg0 (.cmdErase 0x08) = false ∧ Instr.wf cfg0 (.cmdErase 0x07) = true := by decide
theorem test_wf_iso_block :
    Instr.wf cfg0 (.cmdWriteIso [0x1B, 0x73, 0x1B, 0x01, 0x1B, 0x03, 0x1B, 0x02, 0x3F, 0x1C]) = false ∧
    Instr.wf cfg0 (.cmdWriteIso [0x1B, 0x73, 0x1B, 0x01, 0x1B, 0x02, 0x1B, 0x03, 0x3F, 0x1D]) = false ∧
    Instr.wf cfg0 (.cmdWriteIso [0x1B, 0x73, 0x1B, 0x01, 0x1B, 0x02, 0x1B, 0x03, 0x3F, 0x1C]) = true := by decide
theorem test_wf_raw_block :
    Instr.wf cfg0 (.cmdWriteRaw [0x1B, 0x73, 0x1B, 0x02, 0x01, 0x41, 0x1B, 0x01, 0x01, 0x41, 0x3F, 0x1C]) = false ∧
    Instr.wf cfg0 (.cmdWriteRaw [0x1B, 0x73, 0x1B, 0x01, 0x02, 0x41, 0x3F, 0x1C]) = false ∧
    Instr.wf cfg0 (.cmdWriteRaw [0x1B, 0x73, 0x1B, 0x01, 0x01, 0x41, 0x1B, 0x03, 0x01, 0x42, 0x3F, 0x1C]) = true := by decide

/-! ### Decoding: a request written out from R79, or a frame byte by byte from R63 to R65, for every constructor -/

theorem test_decode_pack : decode cfg0 (.op 0b00001 { alphabet := [0x30, 0x31], w := 1, ow := 8 }) = .ok (.pack [0x30, 0x31] 1 8) := rfl
theorem test_decode_unpack : decode cfg0 (.op 0b00010 { alphabet := [0x30, 0x31], w := 1, ow := 7 }) = .ok (.unpack [0x30, 0x31] 1 7) := rfl
theorem test_decode_isoenc : decode cfg0 (.op 0b00011 {}) = .ok .isoenc := rfl
theorem test_decode_isodec : decode cfg0 (.op 0b00100 {}) = .ok .isodec := rfl
theorem test_decode_rawenc : decode cfg0 (.op 0b00101 {}) = .ok .rawenc := rfl
theorem test_decode_rawdec : decode cfg0 (.op 0b00110 {}) = .ok .rawdec := rfl
theorem test_decode_send : decode cfg0 (.op 0b00111 {}) = .ok .send := rfl
theorem test_decode_sendwait : decode cfg0 (.op 0b01000 { timeout := 5 }) = .ok (.sendwait 5) := rfl
theorem test_decode_parse : decode cfg0 (.op 0b01001 {}) = .ok .parse := rfl
theorem test_decode_reset : decode cfg0 (.op 0b10000 {}) = .ok .reset := rfl
theorem test_decode_readIso : decode cfg0 (.op 0b10001 {}) = .ok .readIso := rfl
theorem test_decode_readRaw : decode cfg0 (.op 0b10010 {}) = .ok .readRaw := rfl
theorem test_decode_writeIso : decode cfg0 (.op 0b10011 {}) = .ok .writeIso := rfl
theorem test_decode_writeRaw : decode cfg0 (.op 0b10100 {}) = .ok .writeRaw := rfl
theorem test_decode_erase : decode cfg0 (.op 0b10101 { t1 := true, t3 := true }) = .ok (.erase true false true) := rfl
theorem test_decode_setHico : decode cfg0 (.op 0b10110 {}) = .ok .setHico := rfl
theorem test_decode_setLoco : decode cfg0 (.op 0b10111 {}) = .ok .setLoco := rfl
theorem test_decode_setBpi : decode cfg0 (.op 0b11000 { m2 := some 0xD2 }) = .ok (.setBpi none (some 0xD2) none) := rfl
theorem test_decode_setBpc : decode cfg0 (.op 0b11001 { b1 := 7, b2 := 5, b3 := 6 }) = .ok (.setBpc 7 5 6) := rfl
theorem test_decode_reserved : decode cfg0 (.op 0b01010 {}) = .error (.reservedOpsel 0x0A) := rfl
theorem test_decode_cmdReset : decode cfg0 (.wire [0x1B, 0x61]) = .ok .cmdReset := by decide
theorem test_decode_cmdReadIso : decode cfg0 (.wire [0x1B, 0x72]) = .ok .cmdReadIso := by decide
theorem test_decode_cmdReadRaw : decode cfg0 (.wire [0x1B, 0x6D]) = .ok .cmdReadRaw := by decide
theorem test_decode_cmdWriteIso : decode cfg0 (.wire [0x1B, 0x77, 0x1B, 0x73]) = .ok (.cmdWriteIso [0x1B, 0x73]) := by decide
theorem test_decode_cmdWriteRaw : decode cfg0 (.wire [0x1B, 0x6E, 0x1B, 0x73]) = .ok (.cmdWriteRaw [0x1B, 0x73]) := by decide
theorem test_decode_cmdErase : decode cfg0 (.wire [0x1B, 0x63, 0x05]) = .ok (.cmdErase 0x05) := by decide
theorem test_decode_cmdSetBpc : decode cfg0 (.wire [0x1B, 0x6F, 0x07, 0x05, 0x06]) = .ok (.cmdSetBpc 7 5 6) := by decide
theorem test_decode_cmdSetBpi : decode cfg0 (.wire [0x1B, 0x62, 0xD2]) = .ok (.cmdSetBpi 0xD2) := by decide
theorem test_decode_cmdSetHico : decode cfg0 (.wire [0x1B, 0x78]) = .ok .cmdSetHico := by decide
theorem test_decode_cmdSetLoco : decode cfg0 (.wire [0x1B, 0x79]) = .ok .cmdSetLoco := by decide
theorem test_decode_bad_frames :
    decode cfg0 (.wire [0x1C, 0x61]) = .error .notAFrame ∧ decode cfg0 (.wire [0x1B, 0x60]) = .error (.unknownOpcode 0x60) ∧
    decode cfg0 (.wire [0x1B, 0x63]) = .error (.badPayload 0x63) := by decide

/-! ### Results (spec/95_test_vectors.md; the row in the comment) -/

-- V1
theorem test_pack_abc :
    after (fun t => (t.out0.bytes, t.opsel)) (exec (.pack cfg0.alphaT1 6 8) (inputs [0x41, 0x42, 0x43] [] [])) =
      some ([0x61, 0xF1, 0x08, 0x04], 0x01) := by decide
-- V22
theorem test_pack_precondition :
    after (fun t => t.err) (exec (.pack cfg0.alphaT1 7 8) (inputs [0x41] [] [])) =
      some { kind := .encodingPrecondition, op := 0x01 } := by decide
-- V28
theorem test_unpack_flipped :
    after (fun t => (t.out0.bytes, t.out0.totlen, t.out0.marks, t.out0.lrcErr))
      (exec (.unpack cfg0.alphaT1 6 8) (inputs [0x86, 0xCF, 0x10, 0x20] [] [])) =
      some ([0x41, 0x46, 0x43, 0x40], 4, [false, true, false, false], true) := by decide
-- V34
theorem test_unpack_high_bits_ignored :
    after (fun t => (t.out0.bytes, t.out0.totlen, t.out0.lrcErr))
      (exec (.unpack cfg0.alphaT23 4 5) (inputs [0xF0, 0xE8, 0x39, 0x44, 0x95, 0x30] [] [])) =
      some ([0x31, 0x32, 0x33, 0x34, 0x35, 0x31], 6, false) := by decide
-- I2
theorem test_isoenc :
    after (fun t => t.out0.bytes)
      (exec .isoenc (inputs [0x25, 0x41, 0x42, 0x3F] [] [0x3B, 0x33, 0x34, 0x3F])) =
      some [0x1B, 0x73, 0x1B, 0x01, 0x25, 0x41, 0x42, 0x3F, 0x1B, 0x02, 0x1B, 0x03, 0x3B, 0x33, 0x34, 0x3F, 0x3F, 0x1C] := by
  decide
-- I18
theorem test_isodec :
    after (fun t => (t.out0, t.out1.present, t.out2.bytes))
      (exec .isodec (inputs [0x1B, 0x73, 0x1B, 0x01, 0x1B, 0x02, 0x1B, 0x03, 0x1B, 0x03, 0x3F, 0x1C] [] [])) =
      some ({}, false, [0x1B, 0x03]) := by decide
-- I12
theorem test_isodec_offset :
    after (fun t => (t.err.kind, t.err.offset))
      (exec .isodec (inputs [0x1B, 0x73, 0x1B, 0x01, 0x41, 0x1B, 0x02, 0x42, 0x3F, 0x1C] [] [])) =
      some (.framingError, 7) := by decide
-- W2
theorem test_rawenc :
    after (fun t => t.out0.bytes) (exec .rawenc (inputs [0x61, 0xF1, 0x08, 0x04] [] [0x41])) =
      some [0x1B, 0x73, 0x1B, 0x01, 0x04, 0x61, 0xF1, 0x08, 0x04, 0x1B, 0x03, 0x01, 0x41, 0x3F, 0x1C] := by decide
-- W10
theorem test_rawdec :
    after (fun t => (t.out0.bytes, t.out1.bytes, t.out2.bytes))
      (exec .rawdec (inputs [0x1B, 0x73, 0x1B, 0x01, 0x02, 0x41, 0x42, 0x1B, 0x02, 0x01, 0x43, 0x1B, 0x03, 0x01, 0x44, 0x3F,
        0x1C, 0xAA, 0xBB] [] [])) = some ([0x41, 0x42], [0x43], [0x44]) := by decide
-- W17
theorem test_rawdec_offset :
    after (fun t => (t.err.kind, t.err.offset))
      (exec .rawdec (inputs [0x1B, 0x73, 0x1B, 0x01, 0x01, 0x41, 0x1B, 0x02, 0x03, 0x42, 0x1B, 0x03, 0x01, 0x43, 0x3F, 0x1C]
        [] [])) = some (.framingError, 12) := by decide
-- T8
theorem test_send :
    after (fun t => (t.txs, t.rxf)) (exec .send { inputs [0x61] [] [] with rxf := [0xAA] }) =
      some ([0x1B, 0x61], [0xAA]) := by decide
-- T4
theorem test_sendwait_status_unchecked :
    after (fun t => (t.txs, t.rsp.status, t.err.kind)) (exec (.sendwait 9) (answered [0x1B, 0x41] [0x79] [] [])) =
      some ([0x1B, 0x79], 0x41, .none) := by decide
-- T5: the first byte in time, the second after the drain
theorem test_sendwait_late_byte :
    after (fun t => (t.err, t.rxf))
      (exec (.sendwait 9) { inputs [0x72] [] [] with dev := [[], [], [], [0x1B], [], [], [0x30]] }) =
      some ({ kind := .framingError, op := 0x08, offset := 1, raw := [0x1B] }, [0x30]) := by decide
-- F11
theorem test_parse_escape_inside :
    after (fun t => t.rsp) (exec .parse (inputs [0x1B, 0x30, 0x41, 0x1B, 0x42] [] [])) =
      some ⟨0x42, [], [0x1B, 0x30, 0x41]⟩ := by decide
-- M1
theorem test_reset : after (fun t => (t.txs, t.err.kind)) (exec .reset (inputs [] [] [])) = some ([0x1B, 0x61], .none) := by
  decide
-- M2
theorem test_readIso :
    after (fun t => (t.txs, t.out0.bytes, t.out1, t.out2))
      (exec .readIso (answered [0x1B, 0x73, 0x1B, 0x01, 0x25, 0x41, 0x42, 0x3F, 0x1B, 0x02, 0x1B, 0x03, 0x3F, 0x1C, 0x1B, 0x30]
        [] [] [])) = some ([0x1B, 0x72], [0x25, 0x41, 0x42, 0x3F], {}, {}) := by decide
-- M16, its first track with two empty segments after it
theorem test_readRaw :
    after (fun t => (t.out0, t.out1.present, t.out2.totlen))
      (exec .readRaw (answered [0x1B, 0x73, 0x1B, 0x01, 0x04, 0x86, 0x8F, 0x10, 0x20, 0x1B, 0x02, 0x00, 0x1B, 0x03, 0x00, 0x3F,
        0x1C, 0x1B, 0x30] [] [] [])) =
      some (⟨[0x41, 0x42, 0x43, 0x40], true, [false, false, false, false], 4, false⟩, true, 0) := by decide
-- M7
theorem test_writeIso :
    after (fun t => (t.txs, t.err.kind))
      (exec .writeIso { answered [0x1B, 0x30] [0x25, 0x41, 0x42, 0x3F] [] [] with in1 := {}, in2 := {} }) =
      some ([0x1B, 0x77, 0x1B, 0x73, 0x1B, 0x01, 0x25, 0x41, 0x42, 0x3F, 0x1B, 0x02, 0x1B, 0x03, 0x3F, 0x1C], .none) := by decide
-- M8
theorem test_writeRaw :
    after (fun t => (t.txs, t.err.kind))
      (exec .writeRaw { answered [0x1B, 0x30] [0x41, 0x42, 0x43] [0x31, 0x32, 0x33, 0x34, 0x35] [] with in2 := {} }) =
      some ([0x1B, 0x6E, 0x1B, 0x73, 0x1B, 0x01, 0x04, 0x61, 0xF1, 0x08, 0x04, 0x1B, 0x02, 0x04, 0x41, 0x4C, 0x52, 0x03, 0x3F,
        0x1C], .none) := by decide
-- M5, P3
theorem test_erase :
    after (fun t => t.txs) (exec (.erase true false true) (answered [0x1B, 0x30] [] [] [])) = some [0x1B, 0x63, 0x05] := by decide
theorem test_erase_timeout :
    after (fun t => (t.err, t.busy, t.tstate)) (exec (.erase true true true) (inputs [] [] [])) =
      some ({ kind := .transportTimeout, op := 0x15 }, false, .idle) := by decide
-- M12
theorem test_setHico :
    after (fun t => (t.txs, t.opsel)) (exec .setHico (answered [0x1B, 0x30] [] [] [])) = some ([0x1B, 0x78], 0x16) := by decide
theorem test_setLoco :
    after (fun t => (t.txs, t.opsel)) (exec .setLoco (answered [0x1B, 0x30] [] [] [])) = some ([0x1B, 0x79], 0x17) := by decide
-- P4, the end state of the failed second transaction
theorem test_setBpi :
    after (fun t => (t.txs, t.err, t.mstep))
      (exec (.setBpi (some 0x11) (some 0x22) (some 0x33))
        { inputs [] [] [] with dev := [[], [], [], [0x1B, 0x30], [], [], [], [], [], [], [0x1B, 0x41]] }) =
      some ([0x1B, 0x62, 0x11, 0x1B, 0x62, 0x22], { kind := .deviceStatusError, op := 0x18, status := 0x41, arg := 0x22 }, 1) := by decide
-- M15
theorem test_setBpc :
    after (fun t => (t.txs, t.rsp.imm)) (exec (.setBpc 7 5 5) (answered [0x1B, 0x30, 0x07, 0x05, 0x05] [] [] [])) =
      some ([0x1B, 0x6F, 0x07, 0x05, 0x05], [0x07, 0x05, 0x05]) := by decide
-- R64, R65: the frame each wire command puts on the link
theorem test_wire_frames :
    after (fun t => t.txs) (exec .cmdReset (inputs [] [] [])) = some [0x1B, 0x61] ∧
    after (fun t => t.txs) (exec .cmdReadIso (inputs [] [] [])) = some [0x1B, 0x72] ∧
    after (fun t => t.txs) (exec .cmdReadRaw (inputs [] [] [])) = some [0x1B, 0x6D] ∧
    after (fun t => t.txs) (exec (.cmdWriteIso [0x1B, 0x73]) (inputs [] [] [])) = some [0x1B, 0x77, 0x1B, 0x73] ∧
    after (fun t => t.txs) (exec (.cmdWriteRaw [0x1B, 0x73]) (inputs [] [] [])) = some [0x1B, 0x6E, 0x1B, 0x73] := by decide
theorem test_wire_setting_frames :
    after (fun t => t.txs) (exec (.cmdErase 5) (inputs [] [] [])) = some [0x1B, 0x63, 0x05] ∧
    after (fun t => t.txs) (exec (.cmdSetBpc 7 5 6) (inputs [] [] [])) = some [0x1B, 0x6F, 0x07, 0x05, 0x06] ∧
    after (fun t => t.txs) (exec (.cmdSetBpi 0xD2) (inputs [] [] [])) = some [0x1B, 0x62, 0xD2] ∧
    after (fun t => t.txs) (exec .cmdSetHico (inputs [] [] [])) = some [0x1B, 0x78] ∧
    after (fun t => t.txs) (exec .cmdSetLoco (inputs [] [] [])) = some [0x1B, 0x79] := by decide

/-! ### Witnesses: for each statement with hypotheses, a state and operands that meet them, each clause at a boundary -/

/-- Buffers of `n + 1` bytes. -/
def small (n : Nat) (a : Bytes) : State := { inputs a [] [] with cfg := { cfg0 with drainMax := n } }

theorem pre_t1 : pre cfg0.alphaT1 6 8 := by unfold pre; decide
theorem pre_two : pre [0x30, 0x31] 1 1 := by unfold pre; decide
theorem taken_pack : taken (.pack cfg0.alphaT1 6 8) (small 1 [0x41]) := ⟨⟨rfl, rfl⟩, fun _ => by decide⟩
theorem taken_unpack (P : Bytes) (h : P.length * 8 / 7 ≤ cfg0.bufMax) : taken (.unpack cfg0.alphaT1 6 8) (inputs P [] []) :=
  ⟨⟨rfl, rfl⟩, fun _ => h⟩

theorem witness_DecodeEncodeRoundTrip : Config.default.opcodes.Nodup := by decide
theorem witness_DecodedRequestIsTheEncoding :
    decode cfg0 (.wire [0x1B, 0x6F, 7, 5, 6]) = .ok (.cmdSetBpc 7 5 6) ∧
    decode cfg0 (.op 0x19 { b1 := 7, m1 := some 1 }) = .ok (.setBpc 7 0 0) := by decide
theorem witness_StepRunsDecodedOperation :
    { inputs [] [] [] with host := [.request (.op 3 {})] }.host = .request (.op 3 {}) :: [] ∧
    decode cfg0 (.op 3 {}) = .ok .isoenc ∧ decode cfg0 (.op 0 {}) = .error (.reservedOpsel 0) := ⟨rfl, rfl, rfl⟩
theorem witness_FetchWordRunsNext :
    requestOfTableWord cfg0 5 0b10111 = some (.op 0x17 {}) ∧ decode cfg0 (.op 0x17 {}) = .ok .setLoco ∧
    requestOfTableWord cfg0 16 0x1B63 = some (.wire [0x1B, 0x63, 0]) ∧
    decode cfg0 (.wire [0x1B, 0x63, 0]) = .ok (.cmdErase 0) := by decide
theorem witness_ReservedOpselHasNoEffect :
    (∀ op ∈ [(0x00 : OpSel), 0x0A, 0x0F, 0x1A, 0x1F],
      op.toNat = 0x00 ∨ (0x0A ≤ op.toNat ∧ op.toNat ≤ 0x0F) ∨ 0x1A ≤ op.toNat) ∧
    (∀ op ∈ [(0x01 : OpSel), 0x09, 0x10, 0x19],
      ¬ (op.toNat = 0x00 ∨ (0x0A ≤ op.toNat ∧ op.toNat ≤ 0x0F) ∨ 0x1A ≤ op.toNat)) := by decide
theorem witness_RefusedRequestHasNoEffect :
    ¬ taken .isoenc (small 8 []) ∧ taken .isoenc (small 9 []) ∧ ¬ taken .parse { inputs [] [] [] with busy := true } ∧
    ¬ taken .send (teardown (inputs [] [] [])) :=
  ⟨fun h => absurd h.2 (by unfold resultFits; decide), ⟨⟨rfl, rfl⟩, by unfold resultFits; decide⟩,
    fun h => absurd h.1.2 (by decide), fun h => absurd h.1.1 (by decide)⟩
theorem witness_ParityAndReversalTables :
    (1 ≤ 1 ∧ 1 ≤ 6 ∧ (1 : Code).toNat < 2 ^ 1) ∧ (1 ≤ 6 ∧ 6 ≤ 6 ∧ (63 : Code).toNat < 2 ^ 6) := by decide
theorem witness_WidthReversal :
    (1 ≤ 1 ∧ 1 ≤ 6 ∧ (0 : Code).toNat < 2 ^ 1) ∧ (1 ≤ 6 ∧ 6 ≤ 6 ∧ (63 : Code).toNat < 2 ^ 6) ∧ (0 < 1 ∧ 5 < 6) := by decide
theorem witness_CodeLookupIsLeastIndex :
    cfg0.alphaT1.length ≤ 64 ∧ cfg0.alphaT1[63]? = some 0x5F ∧ (∀ j, j < 63 → cfg0.alphaT1[j]? ≠ some 0x5F) ∧
    cfg0.alphaT1[0]? = some 0x20 ∧ 0x61 ∉ cfg0.alphaT1 := by decide
theorem witness_AccumulatorStaysBounded : pre cfg0.alphaT1 6 8 ∧ pre [0x30, 0x31] 1 1 := ⟨pre_t1, pre_two⟩
theorem witness_PackResult : pre cfg0.alphaT1 6 8 ∧ taken (.pack cfg0.alphaT1 6 8) (small 1 [0x41]) := ⟨pre_t1, taken_pack⟩
theorem witness_PackOutputShape :
    pre cfg0.alphaT1 6 8 ∧ taken (.pack cfg0.alphaT1 6 8) (small 1 [0x41]) ∧
    ∃ t, exec (.pack cfg0.alphaT1 6 8) (small 1 [0x41]) = .next t := ⟨pre_t1, taken_pack, _, rfl⟩
theorem witness_PackerPreconditions :
    ready (inputs [] [] []) ∧ ¬ pre cfg0.alphaT1 7 8 ∧ ¬ pre [0x30] 0 8 ∧ ¬ pre cfg0.alphaT1 6 9 ∧ ¬ pre cfg0.alphaT1 6 0 ∧
    ¬ pre cfg0.alphaT23 6 8 ∧ pre cfg0.alphaT1 6 8 ∧ taken (.unpack cfg0.alphaT1 6 8) (inputs [0] [] []) ∧
    ∃ t, exec (.unpack cfg0.alphaT1 6 8) (inputs [0] [] []) = .next t :=
  ⟨⟨rfl, rfl⟩, by unfold pre; decide, by unfold pre; decide, by unfold pre; decide, by unfold pre; decide,
    by unfold pre; decide, pre_t1, taken_unpack _ (by decide), _, rfl⟩
theorem witness_UnpackResult : pre cfg0.alphaT1 6 8 ∧ taken (.unpack cfg0.alphaT1 6 8) (inputs [0x87, 0x0C] [] []) :=
  ⟨pre_t1, taken_unpack _ (by decide)⟩
-- one symbol: LRC nonzero; two equal symbols: LRC zero
theorem witness_LoopbackThroughGroupReversal :
    (∃ t, exec (.pack cfg0.alphaT1 6 8) (small 1 [0x41]) = .next t ∧
      taken (.unpack cfg0.alphaT1 6 8) (inputs [0x87, 0x0C] [] []) ∧ [0x87, 0x0C] = brev 8 t.out0.bytes) ∧
    (∀ ch ∈ [(0x41 : Byte)], ch ∈ cfg0.alphaT1) ∧ cfg0.alphaT1.Nodup ∧
    lrcOf (codes cfg0.alphaT1 [0x41]) ≠ 0 ∧ lrcOf (codes cfg0.alphaT1 [0x41, 0x41]) = 0 :=
  ⟨⟨_, rfl, taken_unpack _ (by decide), by decide⟩, by decide, by decide, by decide, by decide⟩
-- the first and the last bit of the two units
theorem witness_SingleBitFlipIsMarked :
    (∃ t, exec (.pack cfg0.alphaT1 6 8) (small 1 [0x41]) = .next t ∧
      [0x07, 0x0C] = flipBit 8 0 (brev 8 t.out0.bytes) ∧ [0x87, 0x08] = flipBit 8 13 (brev 8 t.out0.bytes)) ∧
    0 < (1 + 1) * (6 + 1) ∧ 13 < (1 + 1) * (6 + 1) ∧
    taken (.unpack cfg0.alphaT1 6 8) (inputs [0x07, 0x0C] [] []) ∧
    taken (.unpack cfg0.alphaT1 6 8) (inputs [0x87, 0x08] [] []) ∧
    (unpackRun cfg0.alphaT1 6 8 [0x87, 0x08]).lastnz = some 1 ∧ 13 / (6 + 1) ≤ 1 :=
  ⟨⟨_, rfl, by decide, by decide⟩, by decide, by decide, taken_unpack _ (by decide), taken_unpack _ (by decide), by decide,
    by decide⟩
theorem witness_LrcDetectsColumnChanges :
    (∃ t, exec (.pack cfg0.alphaT1 6 8) (small 1 [0x41]) = .next t ∧
      [0x87, 0x08] = flipBit 8 13 (brev 8 t.out0.bytes) ∧ [(0x00 : Byte), 0x00].length = t.out0.bytes.length) ∧
    taken (.pack cfg0.alphaT1 6 8) (small 1 [0x41]) ∧ taken (.unpack cfg0.alphaT1 6 8) (inputs [0x87, 0x08] [] []) ∧
    taken (.unpack cfg0.alphaT1 6 8) (inputs [0x00, 0x00] [] []) :=
  ⟨⟨_, rfl, by decide, by decide⟩, taken_pack, taken_unpack _ (by decide), taken_unpack _ (by decide)⟩
theorem witness_IsoencResult : taken .isoenc (small 9 []) := ⟨⟨rfl, rfl⟩, by unfold resultFits; decide⟩

/-- The shortest ISO block (I3), and one with three one-byte strips. -/
def iso0 : Bytes := [0x1B, 0x73, 0x1B, 0x01, 0x1B, 0x02, 0x1B, 0x03, 0x3F, 0x1C]
def iso1 : Bytes := [0x1B, 0x73, 0x1B, 0x01, 0x41, 0x1B, 0x02, 0x42, 0x1B, 0x03, 0x43, 0x3F, 0x1C]

theorem witness_IsodecOutcome_header :
    ready (inputs iso0 [] []) ∧ (iso0.take 9).length < 10 ∧ ([] : Bytes).length < 10 ∧ 10 ≤ iso0.length ∧
    (iso0.set 0 0)[0]? ≠ [cfg0.esc, cfg0.chS, cfg0.esc, 0x01][0]? ∧
    ((iso0.set 3 2).take 3 = [cfg0.esc, cfg0.chS, cfg0.esc, 0x01].take 3 ∧
      (iso0.set 3 2)[3]? ≠ [cfg0.esc, cfg0.chS, cfg0.esc, 0x01][3]?) :=
  ⟨⟨rfl, rfl⟩, by decide, by decide, by decide, by decide, by decide⟩
theorem witness_IsodecOutcome_trailer :
    iso0.take 4 = [cfg0.esc, cfg0.chS, cfg0.esc, 0x01] ∧ (iso0.set 8 0)[10 - 2]? ≠ some cfg0.chQM ∧
    (iso0.set 9 0)[10 - 2]? = some cfg0.chQM ∧ (iso0.set 9 0)[10 - 1]? ≠ some cfg0.fs ∧
    iso0[10 - 2]? = some cfg0.chQM ∧ iso0[10 - 1]? = some cfg0.fs := by decide
-- no first marker; the first marker at the least index with no second; both markers at their least indices
theorem witness_IsodecOutcome_markers :
    (∀ i, i < 10 → 4 ≤ i → i + 1 < 10 - 2 → ¬ ((iso0.set 5 0)[i]? = some cfg0.esc ∧ (iso0.set 5 0)[i + 1]? = some 0x02)) ∧
    markerAt cfg0 iso0 0x02 4 ∧ 4 + 1 < 10 - 2 ∧
    (∀ i, i < 10 → 6 ≤ i → i + 1 < 10 - 2 → ¬ ((iso0.set 7 0)[i]? = some cfg0.esc ∧ (iso0.set 7 0)[i + 1]? = some 0x03)) ∧
    markerAt cfg0 iso0 0x03 6 ∧ 6 + 1 < 10 - 2 :=
  ⟨by decide, by unfold markerAt; decide, by decide, by decide, by unfold markerAt; decide, by decide⟩
theorem witness_IsoRoundTrip :
    taken .isoenc (inputs [0x41] [0x42] [0x43]) ∧
    (∃ t, exec .isoenc (inputs [0x41] [0x42] [0x43]) = .next t ∧ iso1 = t.out0.bytes) ∧
    cfg0.esc ≠ 0x02 ∧ cfg0.esc ≠ 0x03 ∧ ¬ [cfg0.esc, 0x02] <:+: [(0x41 : Byte)] ∧ ¬ [cfg0.esc, 0x03] <:+: [(0x42 : Byte)] ∧
    ready (inputs iso1 [] []) :=
  ⟨⟨⟨rfl, rfl⟩, by unfold resultFits; decide⟩, ⟨_, rfl, by decide⟩, by decide, by decide, by decide, by decide, ⟨rfl, rfl⟩⟩
/-- The longest strip that has a raw encoding. -/
def a255 : Bytes := List.replicate 255 0
theorem a255_length : a255.length = 255 := List.length_replicate

-- a strip of 255 bytes has an encoding, one of 256 has none, whichever strip it is
theorem witness_RawencOutcome :
    ready (inputs a255 a255 a255) ∧ a255.length ≤ 255 ∧
    255 < ([0 :: a255, [], []].getD 0 []).length ∧
    (255 < ([a255, 0 :: a255, []].getD 1 []).length ∧ ([a255, 0 :: a255, []].getD 0 []).length ≤ 255) ∧
    (255 < ([a255, a255, 0 :: a255].getD 2 []).length ∧ ([a255, a255, 0 :: a255].getD 0 []).length ≤ 255 ∧
      ([a255, a255, 0 :: a255].getD 1 []).length ≤ 255) :=
  ⟨⟨rfl, rfl⟩, by simp [a255_length], by simp [a255_length], by simp [a255_length], by simp [a255_length]⟩

/-- Three one-byte segments. -/
def raw1 : Bytes := [0x1B, 0x73, 0x1B, 0x01, 0x01, 0x41, 0x1B, 0x02, 0x01, 0x42, 0x1B, 0x03, 0x01, 0x43, 0x3F, 0x1C]

theorem witness_RawdecOutcome_success :
    ready (inputs raw1 [] []) ∧ raw1 ++ [0xAA] = rawFull cfg0 [0x41] [0x42] [0x43] ++ [0xAA] := ⟨⟨rfl, rfl⟩, by decide⟩
-- the header; each kind of segment failure at the first and at the last segment; the trailer
theorem witness_RawdecOutcome_failures :
    ([] : Bytes)[0]? ≠ some cfg0.esc ∧ ([0x1B] : Bytes)[1]? ≠ some cfg0.chS ∧
    [0x1B, 0x73] = rawPrefix cfg0 [] ++ [] ∧ ([] : Bytes)[0]? ≠ some cfg0.esc ∧
    [0x1B, 0x73, 0x1B] = rawPrefix cfg0 [] ++ [0x1B] ∧ ([0x1B] : Bytes)[1]? ≠ some (BitVec.ofNat 8 (0 + 1)) ∧
    raw1.take 12 = rawPrefix cfg0 [[0x41], [0x42]] ++ [cfg0.esc, BitVec.ofNat 8 (2 + 1)] ∧
    raw1.take 13 = rawPrefix cfg0 [[0x41], [0x42]] ++ cfg0.esc :: BitVec.ofNat 8 (2 + 1) :: 0x01 :: [] ∧
    ([] : Bytes).length < (0x01 : Byte).toNat ∧
    raw1.take 14 = rawPrefix cfg0 [[0x41], [0x42], [0x43]] ++ [] ∧ ([] : Bytes)[0]? ≠ some cfg0.chQM ∧
    raw1.take 15 = rawPrefix cfg0 [[0x41], [0x42], [0x43]] ++ [0x3F] ∧ ([0x3F] : Bytes)[1]? ≠ some cfg0.fs := by decide
theorem witness_RawRoundTrip :
    ready (inputs [0x41] [0x1B, 0x02] [0x3F, 0x1C]) ∧
    (∀ p ∈ [[(0x41 : Byte)], [0x1B, 0x02], [0x3F, 0x1C]], 1 ≤ p.length ∧ p.length ≤ 255) := ⟨⟨rfl, rfl⟩, by decide⟩
theorem witness_RawEmptyStripAsymmetry :
    ready (inputs [0x41] [] [0x42]) ∧ ([] : Bytes) ∈ [[(0x41 : Byte)], [], [0x42]] ∧
    (∃ t, exec .rawdec (inputs [0x1B, 0x73, 0x1B, 0x01, 0x00, 0x1B, 0x02, 0x00, 0x1B, 0x03, 0x00, 0x3F, 0x1C] [] []) = .next t ∧
      t.err.kind = .none ∧ [] ∈ [t.out0.bytes, t.out1.bytes, t.out2.bytes]) :=
  ⟨⟨rfl, rfl⟩, by decide, ⟨_, rfl, by decide, by decide⟩⟩
theorem witness_SendResult :
    ready (inputs [0x61] [] []) ∧ ∀ i ∈ [Instr.send, .reset, .cmdReset],
      (i, [(0x61 : Byte)]) ∈ [(Instr.send, [(0x61 : Byte)]), (.reset, [cfg0.opcReset]), (.cmdReset, [cfg0.opcReset])] :=
  ⟨⟨rfl, rfl⟩, by decide⟩
-- F1, the shortest response, and F8, data that is an ESC
theorem witness_ParseSuccess :
    ready (inputs [0x1B, 0x30] [] []) ∧ isResponse cfg0 [0x1B, 0x30] ⟨0x30, [], []⟩ ∧
    isResponse cfg0 [0x1B, 0x1B, 0x30] ⟨0x30, [], [0x1B]⟩ :=
  ⟨⟨rfl, rfl⟩, by unfold isResponse; decide, by unfold isResponse; decide⟩
theorem witness_ParseFailure :
    ready (inputs [] [] []) ∧ noResponse cfg0 [] ∧ noResponse cfg0 [0x1B] ∧
    ∃ t, exec (.sendwait 9) (answered [0x1B] [0x79] [] []) = .next t ∧ t.err.kind = .framingError :=
  ⟨⟨rfl, rfl⟩, .inl (by decide), .inr ⟨[], by decide⟩, _, rfl, by decide⟩

/-! The transaction statements share their hypotheses. -/

theorem early_silent : early (inputs [] [] []) = [] := rfl
theorem early_answered : early (answered [0x1B, 0x30] [] [] []) ≠ [] := by decide
theorem accepted : isResponse cfg0 (accumulated (answered [0x1B, 0x30] [] [] [])) ⟨0x30, [], []⟩ := by
  unfold isResponse; decide
theorem turned_down : isResponse cfg0 (accumulated (answered [0x1B, 0x41] [] [] [])) ⟨0x41, [], []⟩ := by
  unfold isResponse; decide
theorem no_response : noResponse cfg0 (accumulated (answered [0x1B] [] [] [])) := .inr ⟨[], by decide⟩

theorem witness_SilentDeviceTimesOut :
    ready (inputs [] [] []) ∧ transaction (inputs [] [] []) .setHico = some (0x16, [0x78]) ∧ early (inputs [] [] []) = [] :=
  ⟨⟨rfl, rfl⟩, by decide, rfl⟩
theorem witness_UnparsableResponseIsFramingError :
    ready (answered [0x1B] [] [] []) ∧ transaction (answered [0x1B] [] [] []) .readRaw = some (0x12, [0x6D]) ∧
    early (answered [0x1B] [] [] []) ≠ [] ∧ noResponse cfg0 (accumulated (answered [0x1B] [] [] [])) :=
  ⟨⟨rfl, rfl⟩, by decide, by decide, no_response⟩
theorem witness_FailureStatusIsDeviceStatusError :
    ready (answered [0x1B, 0x41] [] [] []) ∧ early (answered [0x1B, 0x41] [] [] []) ≠ [] ∧
    transaction (answered [0x1B, 0x41] [] [] []) .readIso = some (0x11, [0x72]) ∧ (0x11 : OpSel) ≠ 0x08 ∧
    isResponse cfg0 (accumulated (answered [0x1B, 0x41] [] [] [])) ⟨0x41, [], []⟩ ∧ (0x41 : Byte) ≠ cfg0.stOK :=
  ⟨⟨rfl, rfl⟩, by decide, by decide, by decide, turned_down, by decide⟩
theorem witness_SendwaitAndWireCommandsComplete :
    ready (answered [0x1B, 0x30] [] [] []) ∧ early (answered [0x1B, 0x30] [] [] []) ≠ [] ∧
    isResponse cfg0 (accumulated (answered [0x1B, 0x30] [] [] [])) ⟨0x30, [], []⟩ ∧
    ∀ i ∈ [Instr.sendwait 0, .cmdReadIso, .cmdReadRaw, .cmdWriteIso [], .cmdWriteRaw [], .cmdErase 7, .cmdSetBpc 7 5 5,
      .cmdSetBpi 0, .cmdSetHico, .cmdSetLoco],
      ((transaction (answered [0x1B, 0x30] [] [] []) i).map Prod.fst) = some 0x08 :=
  ⟨⟨rfl, rfl⟩, early_answered, accepted, by decide⟩
theorem witness_StatusOperationsComplete :
    ready (answered [0x1B, 0x30] [] [] []) ∧ early (answered [0x1B, 0x30] [] [] []) ≠ [] ∧
    isResponse cfg0 (accumulated (answered [0x1B, 0x30] [] [] [])) ⟨0x30, [], []⟩ ∧ (0x30 : Byte) = cfg0.stOK ∧
    (transaction (answered [0x1B, 0x30] [] [] []) .writeIso).map Prod.fst = some 0x13 ∧
    (transaction (answered [0x1B, 0x30] [] [] []) (.erase true true true)) = some (0x15, [0x63, 0x07]) ∧
    (transaction (answered [0x1B, 0x30] [] [] []) (.setBpc 7 5 5)) = some (0x19, [0x6F, 7, 5, 5]) :=
  ⟨⟨rfl, rfl⟩, early_answered, accepted, by decide, by decide, by decide, by decide⟩
theorem witness_ReadIsoCompletes :
    ready (answered (iso1 ++ [0x1B, 0x30]) [] [] []) ∧ early (answered (iso1 ++ [0x1B, 0x30]) [] [] []) ≠ [] ∧
    isResponse cfg0 (accumulated (answered (iso1 ++ [0x1B, 0x30]) [] [] [])) ⟨0x30, [], iso1⟩ ∧ (0x30 : Byte) = cfg0.stOK ∧
    iso1 = isoBlock cfg0 [0x41] [0x42] [0x43] ∧ cfg0.esc ≠ 0x02 ∧ cfg0.esc ≠ 0x03 ∧
    ¬ [cfg0.esc, 0x02] <:+: [(0x41 : Byte)] ∧ ¬ [cfg0.esc, 0x03] <:+: [(0x42 : Byte)] :=
  ⟨⟨rfl, rfl⟩, by decide, by unfold isResponse; decide, by decide, by decide, by decide, by decide, by decide, by decide⟩
theorem witness_ReadRawCompletes :
    ready (answered (raw1 ++ [0x1B, 0x30]) [] [] []) ∧ cfg0.wf = true ∧
    early (answered (raw1 ++ [0x1B, 0x30]) [] [] []) ≠ [] ∧
    isResponse cfg0 (accumulated (answered (raw1 ++ [0x1B, 0x30]) [] [] [])) ⟨0x30, [], raw1⟩ ∧ (0x30 : Byte) = cfg0.stOK ∧
    raw1 = rawFull cfg0 [0x41] [0x42] [0x43] ++ [] :=
  ⟨⟨rfl, rfl⟩, by decide, by decide, by unfold isResponse; decide, by decide, by decide⟩
-- a block that decodes, one that ISODEC rejects, one that RAWDEC rejects
theorem witness_ReadsDecodeTheResponseData :
    ready (inputs iso1 [] []) ∧ isResponse cfg0 (accumulated (answered [0x41, 0x1B, 0x30] [] [] [])) ⟨0x30, [], [0x41]⟩ ∧
    (∃ t, exec .isodec (inputs iso1 [] []) = .next t ∧ t.err.kind = .none) ∧
    (∃ t, exec .isodec (inputs [0x41] [] []) = .next t ∧ t.err.kind ≠ .none) ∧
    (∃ t, exec .rawdec (inputs [0x41] [] []) = .next t ∧ t.err.kind ≠ .none) :=
  ⟨⟨rfl, rfl⟩, by unfold isResponse; decide, ⟨_, rfl, by decide⟩, ⟨_, rfl, by decide⟩, ⟨_, rfl, by decide⟩⟩
theorem witness_WriteRawOutcome :
    ready (answered [0x1B, 0x30] [0x41] [] []) ∧ cfg0.wf = true ∧
    (packedStrip cfg0 cfg0.track1 ⟨[0x41], true⟩).length ≤ 255 ∧ packedStrip cfg0 cfg0.track2 ⟨[0x31], false⟩ = [] ∧
    early (answered [0x1B, 0x30] [0x41] [] []) ≠ [] ∧ early (inputs [0x41] [] []) = [] ∧
    isResponse cfg0 (accumulated (answered [0x1B, 0x30] [0x41] [] [])) ⟨0x30, [], []⟩ ∧
    isResponse cfg0 (accumulated (answered [0x1B, 0x41] [0x41] [] [])) ⟨0x41, [], []⟩ ∧
    noResponse cfg0 (accumulated (answered [0x1B] [0x41] [] [])) :=
  ⟨⟨rfl, rfl⟩, by decide, by decide, by decide, by decide, rfl, by unfold isResponse; decide, by unfold isResponse; decide,
    .inr ⟨[], by decide⟩⟩
theorem packedStrip_length (c : Config) (t : TrackCfg) (S : Bytes) :
    (packedStrip c t ⟨S, true⟩).length =
      ((packStream (alphabet c t.sel) t.codeWidth.toNat S).length + (t.outputWidth.toNat - 1)) / t.outputWidth.toNat := by
  simp [packedStrip, packed, groupsOf]
theorem packStream_length (A : Bytes) (w : Nat) (S : Bytes) : (packStream A w S).length = (S.length + 1) * (w + 1) := by
  have h : ∀ cs : List Code, (cs.flatMap (unitBits w)).length = cs.length * (w + 1) := by
    intro cs
    induction cs with
    | nil => simp
    | cons c cs ih =>
      simp only [List.flatMap_cons, List.length_append, ih, unitBits, List.length_map, List.length_range, List.length_cons,
        List.length_nil]
      ring
  rw [packStream, h]
  simp [codes]
-- V21: 290 symbols pack to 255 bytes on track 1, 291 to 256; 408 to 256 on track 2
theorem witness_WriteRawTooLongRaisesFirst :
    ready (inputs (List.replicate 291 0x41) [] []) ∧ cfg0.wf = true ∧
    255 < (packedStrip cfg0 cfg0.track1 ⟨List.replicate 291 0x41, true⟩).length ∧
    (packedStrip cfg0 cfg0.track1 ⟨List.replicate 290 0x41, true⟩).length ≤ 255 ∧
    255 < (packedStrip cfg0 cfg0.track2 ⟨List.replicate 408 0x31, true⟩).length ∧
    255 < (packedStrip cfg0 cfg0.track3 ⟨List.replicate 408 0x31, true⟩).length := by
  refine ⟨⟨rfl, rfl⟩, by decide, ?_, ?_, ?_, ?_⟩ <;>
    rw [packedStrip_length, packStream_length, List.length_replicate] <;> decide
theorem witness_SetBpiOutcome : ready (answered [0x1B, 0x30] [] [] []) := ⟨rfl, rfl⟩
theorem witness_SetBpiOneModeCompletes :
    ready (answered [0x1B, 0x30] [] [] []) ∧
    Instr.setBpi none none (some 1) ∈ [Instr.setBpi (some 1) none none, .setBpi none (some 1) none, .setBpi none none (some 1)] ∧
    early (answered [0x1B, 0x30] [] [] []) ≠ [] ∧
    isResponse cfg0 (accumulated (answered [0x1B, 0x30] [] [] [])) ⟨0x30, [], []⟩ ∧ (0x30 : Byte) = cfg0.stOK :=
  ⟨⟨rfl, rfl⟩, by decide, early_answered, accepted, by decide⟩
theorem witness_EveryOperationEnds :
    taken .parse (inputs [] [] []) ∧ (∃ t, exec .parse (inputs [] [] []) = .next t ∧ t.err.kind ≠ .none) ∧
    (∃ t, exec .parse (inputs [0x1B, 0x30] [] []) = .next t ∧ t.err.kind = .none) :=
  ⟨⟨⟨rfl, rfl⟩, trivial⟩, ⟨_, rfl, by decide⟩, ⟨_, rfl, by decide⟩⟩
theorem witness_ErrorKindsPerOperation :
    cfg0.wf = true ∧ taken .isodec (inputs [] [] []) ∧ ∃ t, exec .isodec (inputs [] [] []) = .next t :=
  ⟨by decide, ⟨⟨rfl, rfl⟩, trivial⟩, _, rfl⟩
theorem witness_ResponseRegistersHoldAParse :
    (∃ t, exec .parse (inputs [0x1B, 0x30] [] []) = .next t ∧ ready (inputs [0x1B, 0x30] [] []) ∧
      isResponse cfg0 (inputs [0x1B, 0x30] [] []).in0.bytes ⟨0x30, [], []⟩) ∧
    (∃ t, exec .setHico (answered [0x1B, 0x30] [] [] []) = .next t ∧
      (transaction (answered [0x1B, 0x30] [] [] []) .setHico).isSome = true) ∧
    (∃ t, exec .writeRaw (answered [0x1B, 0x30] [] [] []) = .next t ∧ t.err.kind ≠ .encodingPrecondition) ∧
    ready (answered [0x1B, 0x30] [] [] []) ∧ early (answered [0x1B, 0x30] [] [] []) ≠ [] ∧
    isResponse cfg0 (accumulated (answered [0x1B, 0x30] [] [] [])) ⟨0x30, [], []⟩ ∧
    (∃ t, exec .isoenc (inputs [] [] []) = .next t ∧ isPure .isoenc = true ∧ Instr.isoenc ≠ .parse) :=
  ⟨⟨_, rfl, ⟨rfl, rfl⟩, rfl, by decide⟩, ⟨_, rfl, rfl⟩, ⟨_, rfl, by decide⟩, ⟨rfl, rfl⟩, early_answered, accepted,
    _, rfl, rfl, by decide⟩
theorem witness_TransmitStreamGrowsByFrames :
    (∃ t, exec (.setBpi (some 1) none (some 2)) (inputs [] [] []) = .next t ∧
      taken (.setBpi (some 1) none (some 2)) (inputs [] [] [])) ∧
    (∃ t, exec .writeRaw (inputs [] [] []) = .next t ∧ taken .writeRaw (inputs [] [] [])) ∧
    (∃ t, exec .isoenc (inputs [] [] []) = .next t ∧ isPure .isoenc = true) ∧
    (∃ t, exec .send (inputs [] [] []) = .next t ∧ taken .send (inputs [] [] []) ∧ Instr.send ≠ .writeRaw) ∧
    (∀ m1 m2 m3, Instr.send ≠ .setBpi m1 m2 m3) :=
  ⟨⟨_, rfl, ⟨rfl, rfl⟩, trivial⟩, ⟨_, rfl, ⟨rfl, rfl⟩, trivial⟩, ⟨_, rfl, rfl⟩, ⟨_, rfl, ⟨⟨rfl, rfl⟩, trivial⟩, by decide⟩, by simp⟩
theorem witness_PureOperationsLeaveTheLink :
    isPure .rawdec = true ∧ ∃ t, exec .rawdec (inputs raw1 [] []) = .next t := ⟨rfl, _, rfl⟩
theorem witness_OperandsParametersAndMstepAreKept :
    (∃ t, exec .writeRaw (inputs [0x41] [] []) = .next t) ∧ ∀ m1 m2 m3, Instr.writeRaw ≠ .setBpi m1 m2 m3 :=
  ⟨⟨_, rfl⟩, by simp⟩
theorem witness_FlagsAndWorkingRegistersByPackerOnly :
    taken .isodec (inputs iso1 [] []) ∧ (∃ t, exec .isodec (inputs iso1 [] []) = .next t) ∧
    (∀ A w ow, Instr.isodec ≠ .unpack A w ow) ∧ (∀ A w ow, Instr.isodec ≠ .pack A w ow) ∧ Instr.isodec ≠ .readRaw ∧
    Instr.isodec ≠ .writeRaw := ⟨⟨⟨rfl, rfl⟩, trivial⟩, ⟨_, rfl⟩, by simp, by simp, by decide, by decide⟩
theorem witness_StaleBytesHaveNoInfluence :
    ready (inputs [] [] []) ∧ (transaction (inputs [] [] []) .setLoco).isSome = true := ⟨⟨rfl, rfl⟩, rfl⟩
theorem witness_StepKeepsInvariant :
    Machine.Inv (State.resetWith cfg0 [0xAA]) ∧ ∃ t, step (State.resetWith cfg0 [0xAA]) = .next t := by
  refine ⟨?_, _, rfl⟩
  have clear : OutBuf.wf cfg0 {} := ⟨by simp, fun _ => rfl, .inl rfl, by simp⟩
  exact
    { cfg_wf := by decide, not_busy := rfl, idle := rfl, opsel_code := .inl rfl, acc_lt := by decide, pos_fit := by decide
      lastnz_fit := by simp [State.resetWith], in0_fit := by decide, in1_fit := by decide, in2_fit := by decide
      out0_wf := clear, out1_wf := clear, out2_wf := clear, rxbuf_fit := by decide, rsp_fit := by decide, err_wf := rfl
      raw_fit := by decide, err_op := by simp [State.resetWith], err_clean := by simp [State.resetWith] }
theorem witness_InvariantAtReset : cfg0.wf = true := by decide
theorem witness_ResetAndTeardown :
    { inputs [] [] [] with host := [.reset [0xAA]] }.host = .reset [0xAA] :: [] ∧
    { inputs [] [] [] with host := [.teardown] }.host = .teardown :: [] := ⟨rfl, rfl⟩
theorem witness_EnvironmentBetweenOperations :
    (inputs [] [] []).linkOpen = true ∧ { inputs [] [] [] with host := [.idle] }.host = .idle :: [] ∧
    (inputs [] [] []).host = [] ∧ (small 9 []).cfg.bufMax < (List.replicate 11 (0 : Byte)).length ∧
    (List.replicate 10 (0 : Byte)).length ≤ (small 9 []).cfg.bufMax ∧
    ∀ k : Fin 3, { inputs [] [] [] with host := [.load k [1] true] }.host = .load k [1] true :: [] :=
  ⟨rfl, rfl, rfl, by decide, by decide, fun _ => rfl⟩
theorem witness_LinkPrimitives :
    (inputs [] [] []).rxf = [] ∧ { inputs [] [] [] with rxf := [0xAA] }.rxf = 0xAA :: [] := ⟨rfl, rfl⟩

end Sys2Proof.Tests
end

/-! PROOFS, part 1. A transaction of the transport in closed form (R145 to R153): the seven transitions with the device's
arrivals in between are the straight-line text of R153, and what can follow it is one of three things. -/

namespace Sys2Proof.StateProofs
open Sys2Proof.Machine Sys2Proof.Spec Sys2Proof.Laws

/-! ### Arrivals -/

/-- An arrival takes entry 0 of the device's plan. -/
theorem arrive_eq_arrival (s : State) :
    arrive s = { s with rxf := s.rxf ++ arrival s 0, dev := s.dev.drop 1 } := by
  rw [arrive_eq, arrival, List.headD_eq_getD, List.drop_one]

/-! ### The transaction -/

/-- The state in which `S_WAIT_FIRST` is decided. -/
theorem atWaitFirst_eq (C : Bytes) (timeout : Nat) (s : State) :
    atWaitFirst C timeout s = { s with
      txs := s.txs ++ s.cfg.esc :: C, rxf := early s, rxbuf := [], dev := s.dev.drop 4,
      tstate := .waitFirst, tmr := timeout } := by
  simp [atWaitFirst, arrive_eq_arrival, doSettleTx, doTx, doFlush, enterTransaction, linkFlush, linkWrite, frame, early,
    arrival, List.getD_eq_getElem?_getD]

/-- A transaction that received a first byte, up to its parse (R148, R150): the first byte and up to `DRAIN_MAX` more are in
`RXBUF`, the rest stays in `RXF`. -/
theorem atParse_eq (C : Bytes) (timeout : Nat) (s : State) {v : Byte} {rest : Bytes} (h : early s = v :: rest) :
    atParse (doWaitFirst (atWaitFirst C timeout s)) = { heard C s with tstate := .parse } := by
  have hadd : 1 + s.cfg.drainMax = s.cfg.drainMax + 1 := Nat.add_comm ..
  simp [atWaitFirst_eq, atParse, doWaitFirst, linkReadFirst, h, arrive_eq_arrival, doSettleRx, doDrain, linkDrain, heard,
    accumulated, late, received, arrival, List.getD_eq_getElem?_getD, hadd]

/-- The FSM of R145 with the device's arrivals in between is the straight-line text of R153. -/
theorem transact_eq_straightLine (C : Bytes) (timeout : Nat) (s : State) :
    transact C timeout s = straightLine C s := by
  have hrxf : (atWaitFirst C timeout s).rxf = early s := by rw [atWaitFirst_eq]
  rcases transact_cases C timeout s with ⟨h, he⟩ | ⟨v, rest, h, he⟩
  · rw [hrxf] at h
    rw [he, atWaitFirst_eq, straightLine, if_pos h, h]
    rfl
  · rw [hrxf] at h
    rw [he, atParse_eq C timeout s h, straightLine, if_neg (by simp [h])]
    rcases doParse_cases { heard C s with tstate := .parse } with ⟨hp, hd⟩ | ⟨r, hp, hd⟩
    all_goals
      change parseResponse s.cfg (accumulated s) = _ at hp
      rw [hd, hp]

/-- A response parses (R157). -/
theorem parseResponse_iff_isResponse (c : Config) (B : Bytes) (r : Response) :
    parseResponse c B = some r ↔ isResponse c B r :=
  parseResponse_eq_some_iff c B r

/-- The parts of a response are together two bytes shorter than the buffer it was cut from (R157). -/
theorem length_of_isResponse {c : Config} {B : Bytes} {r : Response} (h : isResponse c B r) :
    r.imm.length + r.data.length + 2 = B.length := by
  rw [h.1]
  simp
  omega

/-- At most `1 + DRAIN_MAX` bytes are accumulated (R150). -/
theorem accumulated_length_le (s : State) : (accumulated s).length ≤ 1 + s.cfg.drainMax := by
  simp [accumulated]

/-- Something is accumulated when a first byte came in time. -/
theorem accumulated_ne_nil {s : State} (h : early s ≠ []) : accumulated s ≠ [] := by
  simp [accumulated, received, h, Nat.add_comm 1]

/-- All that a transaction can lead to (R149, R151, R152): the timeout, the framing error with all it accumulated, or the
rest of the operation with the response. -/
theorem sendWait_outcome (C : Bytes) (timeout : Nat) (s : State) (k : State → Result) :
    (early s = [] ∧ sendWait C timeout s k = .next (raise .timeout (silent C s))) ∨
    (early s ≠ [] ∧ parseResponse s.cfg (accumulated s) = none ∧
      sendWait C timeout s k = .next (raise (.framing (accumulated s).length (accumulated s)) (heard C s))) ∨
    ∃ r, early s ≠ [] ∧ isResponse s.cfg (accumulated s) r ∧
      sendWait C timeout s k = k { heard C s with rsp := r, tstate := .idle } := by
  rw [sendWait, transact_eq_straightLine, straightLine]
  by_cases h : early s = []
  · exact .inl ⟨h, by rw [if_pos h]; rfl⟩
  · rw [if_neg h]
    cases hp : parseResponse s.cfg (accumulated s) with
    | none =>
      have herr : transportErr { heard C s with tstate := .error } =
          .framing (accumulated s).length (accumulated s) := by
        rw [transportErr_eq]
        exact if_neg (accumulated_ne_nil h)
      refine .inr (.inl ⟨h, rfl, ?_⟩)
      show raised (transportErr { heard C s with tstate := .error }) { heard C s with tstate := .error } = _
      rw [herr]
      rfl
    | some r => exact .inr (.inr ⟨r, h, (parseResponse_iff_isResponse ..).mp hp, rfl⟩)

end Sys2Proof.StateProofs

/-! PROOFS, part 2. The tables (R13, R14, R62) and the packer: PACK's accumulator holds the pending bits of the stream of
R43, and UNPACK's registers stay within the bounds of R16 to R18. -/

namespace Sys2Proof.StateProofs
open Sys2Proof.Machine Sys2Proof.Spec Sys2Proof.Laws

/-! ### Tables -/

/-- `PAR` makes the number of 1 bits odd (R13). -/
theorem popcount_add_par_odd : ∀ c : Code, (popcount c + (par c).toNat) % 2 = 1 := by decide

/-- The parity bit of a code is 1 exactly when the code has an even number of 1 bits (R13). -/
theorem par_eq_popcount_even (c : Code) : par c = decide (popcount c % 2 = 0) := by
  have h := popcount_add_par_odd c
  cases hp : par c with
  | false => simp [hp] at h ⊢; omega
  | true => simp [hp] at h ⊢; omega

/-- `REV` reverses six bits (R14). -/
theorem rev_getLsbD : ∀ (f : Code) (i : Fin 6), (rev f).getLsbD i = f.getLsbD (5 - i) := by decide

/-- `REV` is an involution (R14). -/
theorem rev_rev : ∀ f : Code, rev (rev f) = f := by decide

/-- A unit carries its parity bit above the code (R62). -/
theorem unitOf_toNat {w : Nat} {c : Code} (hw : w ≤ 6) (hc : c.toNat < 2 ^ w) :
    (unitOf w c).toNat = 2 ^ w * (par c).toNat + c.toNat := by
  have hpow := Nat.pow_le_pow_right (n := 2) (by omega) hw
  have hbit : (((if par c then 1 <<< w else 0 : Nat) : BitVec 7)).toNat = 2 ^ w * (par c).toNat := by
    cases par c with
    | false => simp
    | true =>
      simp [Nat.shiftLeft_eq]
      omega
  have hcode : (c.setWidth 7).toNat = c.toNat := by
    simp only [BitVec.toNat_setWidth]
    omega
  rw [unitOf, BitVec.toNat_or, hbit, hcode, Nat.two_pow_add_eq_or_of_lt hc]

/-- Settles O8: `PAR` and `REV` by their 64 entries, the unit by its arithmetic. -/
theorem parityAndReversalTables : Obligations.ParityAndReversalTables :=
  ⟨popcount_add_par_odd, fun _ _ _ hw hc => unitOf_toNat hw hc, fun f i hi => rev_getLsbD f ⟨i, hi⟩, rev_rev⟩

/-! ### Numbers and bit streams -/

theorem lsbFirst_append (l m : List Bool) : lsbFirst (l ++ m) = lsbFirst l + 2 ^ l.length * lsbFirst m := by
  induction l with
  | nil => simp [lsbFirst]
  | cons b l ih =>
    simp only [List.cons_append, lsbFirst, ih, List.length_cons, pow_succ]
    ring

theorem lsbFirst_lt (l : List Bool) : lsbFirst l < 2 ^ l.length := by
  induction l with
  | nil => simp [lsbFirst]
  | cons b l ih =>
    have := b.toNat_lt
    simp only [lsbFirst, List.length_cons, pow_succ]
    omega

/-- A stream cut after `n` bits: its number cut after `n` bits. -/
theorem lsbFirst_take_drop {n : Nat} {l : List Bool} (h : n ≤ l.length) :
    lsbFirst (l.take n) = lsbFirst l % 2 ^ n ∧ lsbFirst (l.drop n) = lsbFirst l / 2 ^ n := by
  have hlen : (l.take n).length = n := by simp [h]
  have hlt := lsbFirst_lt (l.take n)
  have hcut := lsbFirst_append (l.take n) (l.drop n)
  rw [List.take_append_drop, hlen] at hcut
  rw [hlen] at hlt
  constructor
  · rw [hcut, Nat.add_mul_mod_self_left, Nat.mod_eq_of_lt hlt]
  · rw [hcut, Nat.add_mul_div_left _ _ (Nat.two_pow_pos n), Nat.div_eq_of_lt hlt, Nat.zero_add]

/-- The low `n` bits of a word, lowest first, are the word modulo `2^n`. -/
theorem lsbFirst_low_bits {k : Nat} (x : BitVec k) (n : Nat) :
    lsbFirst ((List.range n).map x.getLsbD) = x.toNat % 2 ^ n := by
  induction n with
  | zero => simp [lsbFirst, Nat.mod_one]
  | succ n ih =>
    rw [List.range_succ, List.map_append, lsbFirst_append, ih, Nat.mod_pow_succ]
    simp [lsbFirst, BitVec.getLsbD, Nat.testBit_eq_decide_div_mod_eq]
    rcases Nat.mod_two_eq_zero_or_one (x.toNat / 2 ^ n) with h | h <;> simp [h]

/-- The stream of a unit is its number (R45, R62). -/
theorem lsbFirst_unitBits {w : Nat} {c : Code} (hw : w ≤ 6) (hc : c.toNat < 2 ^ w) :
    lsbFirst (unitBits w c) = (unitOf w c).toNat := by
  rw [unitBits, lsbFirst_append, lsbFirst_low_bits, Nat.mod_eq_of_lt hc, unitOf_toNat hw hc, par_eq_popcount_even]
  simp [lsbFirst]
  omega

theorem unitBits_length (w : Nat) (c : Code) : (unitBits w c).length = w + 1 := by
  simp [unitBits]

/-- The bytes a stream fills, `ow` bits each, the last one short if need be (R43, R74). -/
def groupBytes (ow : Nat) (l : List Bool) : Bytes := (groupsOf ow l).map fun g => BitVec.ofNat 8 (lsbFirst g)

theorem packed_eq_groupBytes (A : Bytes) (w ow : Nat) (S : Bytes) :
    packed A w ow S = groupBytes ow (packStream A w S) := rfl

@[simp] theorem groupBytes_nil {ow : Nat} (h : 1 ≤ ow) : groupBytes ow [] = [] := by
  have : (ow - 1) / ow = 0 := Nat.div_eq_of_lt (by omega)
  simp [groupBytes, groupsOf, this]

/-- The first group of a stream, then the groups of the rest. -/
theorem groupBytes_of_ne_nil {ow : Nat} (h : 1 ≤ ow) {l : List Bool} (hl : l ≠ []) :
    groupBytes ow l = BitVec.ofNat 8 (lsbFirst (l.take ow)) :: groupBytes ow (l.drop ow) := by
  have hpos := List.length_pos_iff.mpr hl
  have hcount : (l.length + (ow - 1)) / ow = (l.length - ow + (ow - 1)) / ow + 1 := by
    rcases Nat.lt_or_ge l.length ow with hlt | hge
    · rw [show l.length + (ow - 1) = (l.length - 1) + ow by omega, Nat.add_div_right _ h,
        Nat.div_eq_of_lt (by omega), Nat.div_eq_of_lt (by omega)]
    · rw [← Nat.add_div_right _ h]
      congr 1
      omega
  simp only [groupBytes, groupsOf, hcount, List.range_succ_eq_map, List.map_cons, List.map_map, List.length_drop,
    Nat.zero_mul, List.drop_zero]
  congr 2
  funext j
  simp [Nat.succ_mul, Nat.add_comm]

/-! ### PACK -/

/-- `ACC` and `CNT` hold the bits `rest` that wait for a whole group, lowest first (R16, R43). -/
structure Pending (r : PackRegs) (rest : List Bool) : Prop where
  acc : r.acc.toNat = lsbFirst rest
  cnt : r.cnt.toNat = rest.length

/-- The accumulator of pending bits is within its count (R16). -/
theorem Pending.acc_lt {r : PackRegs} {rest : List Bool} (h : Pending r rest) : r.acc.toNat < 2 ^ r.cnt.toNat := by
  rw [h.acc, h.cnt]
  exact lsbFirst_lt rest

/-- A register file from which output `out` and pending bits `rest` have come goes on to the same bytes as `r'`, `rest'`. -/
def SameStream (ow : Nat) (r : PackRegs) (rest : List Bool) (r' : PackRegs) (rest' : List Bool) : Prop :=
  ∀ more, r'.out ++ groupBytes ow (rest' ++ more) = r.out ++ groupBytes ow (rest ++ more)

/-- The flush loop moves whole groups from the pending bits to the output (R93). -/
theorem flushGroups_pending {ow : Nat} (h1 : 1 ≤ ow) (h8 : ow ≤ 8) (n : Nat) (r : PackRegs) (rest : List Bool)
    (hp : Pending r rest) (hn : rest.length ≤ n) :
    ∃ rest', Pending (flushGroups ow n r) rest' ∧ rest'.length < ow ∧ (flushGroups ow n r).lrc = r.lrc ∧
      SameStream ow r rest (flushGroups ow n r) rest' := by
  induction n generalizing r rest with
  | zero => exact ⟨rest, hp, by omega, rfl, fun _ => rfl⟩
  | succ n ih =>
    have hcnt := hp.cnt
    rcases flushGroups_succ ow n r with ⟨hlt, he⟩ | ⟨hge, he⟩
    · rw [he]
      exact ⟨rest, hp, by omega, rfl, fun _ => rfl⟩
    · rw [he]
      have hle : ow ≤ rest.length := by omega
      have hbits := lsbFirst_take_drop hle
      have hpend : Pending { r with out := r.out ++ [r.acc.setWidth 8 &&& lowMask ow], acc := r.acc >>> ow,
                                    cnt := BitVec.ofNat 4 (r.cnt.toNat - ow) } (rest.drop ow) := by
        have := r.cnt.isLt
        constructor
        · rw [hbits.2, ← hp.acc, BitVec.toNat_ushiftRight, Nat.shiftRight_eq_div_pow]
        · rw [List.length_drop, BitVec.toNat_ofNat, Nat.mod_eq_of_lt (by omega), hcnt]
      obtain ⟨rest', hp', hlen', hlrc', hout'⟩ := ih _ _ hpend (by rw [List.length_drop]; omega)
      refine ⟨rest', hp', hlen', hlrc', fun more => ?_⟩
      have hgroup : r.acc.setWidth 8 &&& lowMask ow = BitVec.ofNat 8 (lsbFirst (rest.take ow)) := by
        apply BitVec.eq_of_toNat_eq
        have := Nat.pow_le_pow_right (n := 2) (by omega) h8
        have := Nat.mod_lt (lsbFirst rest) (Nat.two_pow_pos ow)
        rw [low_group_toNat _ _ h8, BitVec.toNat_ofNat, hbits.1, hp.acc, Nat.mod_eq_of_lt (b := 2 ^ 8) (by omega)]
      have hne : rest ++ more ≠ [] := List.append_ne_nil_of_left_ne_nil (List.ne_nil_of_length_pos (by omega)) _
      rw [hout' more, groupBytes_of_ne_nil h1 hne, List.take_append_of_le_length hle, List.drop_append_of_le_length hle,
        hgroup]
      simp

/-- `put_unit` appends the unit's bits to the pending ones and flushes (R93). -/
theorem putUnit_pending {w ow : Nat} {c : Code} (hw : w ≤ 6) (h1 : 1 ≤ ow) (h8 : ow ≤ 8) (hc : c.toNat < 2 ^ w)
    {r : PackRegs} {rest : List Bool} (hp : Pending r rest) (hlen : rest.length < ow) :
    ∃ rest', Pending (putUnit w ow c r) rest' ∧ rest'.length < ow ∧ (putUnit w ow c r).lrc = r.lrc ∧
      SameStream ow r (rest ++ unitBits w c) (putUnit w ow c r) rest' := by
  have hcnt := hp.cnt
  have hpend : Pending { r with acc := r.acc ||| ((unitOf w c).setWidth 14 <<< r.cnt.toNat),
                                cnt := BitVec.ofNat 4 (r.cnt.toNat + w + 1) } (rest ++ unitBits w c) := by
    have hunit : ((unitOf w c).setWidth 14 <<< r.cnt.toNat).toNat = 2 ^ rest.length * (unitOf w c).toNat := by
      have h7 : (unitOf w c).toNat < 2 ^ 7 := (unitOf w c).isLt
      have hpow : 2 ^ rest.length ≤ 2 ^ 7 := Nat.pow_le_pow_right (by omega) (by omega)
      have hmul : 2 ^ rest.length * (unitOf w c).toNat < 2 ^ 14 := by
        calc 2 ^ rest.length * (unitOf w c).toNat ≤ 2 ^ 7 * (unitOf w c).toNat := Nat.mul_le_mul_right _ hpow
          _ < 2 ^ 14 := by omega
      rw [BitVec.toNat_shiftLeft, BitVec.toNat_setWidth, Nat.mod_eq_of_lt (a := (unitOf w c).toNat) (by omega),
        Nat.shiftLeft_eq, hcnt, Nat.mul_comm, Nat.mod_eq_of_lt hmul]
    constructor
    · rw [BitVec.toNat_or, hunit, hp.acc, lsbFirst_append, lsbFirst_unitBits hw hc, Nat.or_comm,
        ← Nat.two_pow_add_eq_or_of_lt (lsbFirst_lt rest), Nat.add_comm]
    · rw [List.length_append, unitBits_length, BitVec.toNat_ofNat, Nat.mod_eq_of_lt (by omega)]
      omega
  exact flushGroups_pending h1 h8 14 _ _ hpend (by rw [List.length_append, unitBits_length]; omega)

/-- The code of a character is an index of the alphabet (R87, R91). -/
theorem codeOf_lt {A : Bytes} {w : Nat} (hA : A.length = 2 ^ w) (ch : Byte) : (codeOf A ch).toNat < 2 ^ w := by
  have hidx : (A.findIdx? (· == ch)).getD 0 < 2 ^ w := by
    cases h : A.findIdx? (· == ch) with
    | none => exact Nat.two_pow_pos w
    | some i =>
      rw [← hA]
      exact (List.findIdx?_eq_some_iff_findIdx_eq.mp h).1
  rw [codeOf, BitVec.toNat_ofNat]
  exact lt_of_le_of_lt (Nat.mod_le _ _) hidx

/-- The model's code lookup is the least index (R87). -/
theorem codeOf_eq_codeIn (A : Bytes) (ch : Byte) : codeOf A ch = codeIn A ch := by
  unfold codeOf codeIn
  split
  · next h => rw [List.findIdx?_eq_some_of_exists ⟨ch, h, by simp⟩]; rfl
  · next h =>
    rw [List.findIdx?_eq_none_iff.mpr fun x hx => by simpa using fun he : x = ch => h (he ▸ hx)]
    rfl

/-- PACK's loop over the symbols, from any registers within their bounds (R93). -/
theorem packSymbols_pending {A : Bytes} {w ow : Nat} (hpre : pre A w ow) (S : Bytes) (r : PackRegs) (rest : List Bool)
    (hp : Pending r rest) (hlen : rest.length < ow) (hlrc : r.lrc.toNat < 2 ^ w) :
    ∃ rest', Pending (S.foldl (packSymbol A w ow) r) rest' ∧ rest'.length < ow ∧
      (S.foldl (packSymbol A w ow) r).lrc.toNat < 2 ^ w ∧
      (S.foldl (packSymbol A w ow) r).lrc = (codes A S).foldl (· ^^^ ·) r.lrc ∧
      SameStream ow r (rest ++ (codes A S).flatMap (unitBits w)) (S.foldl (packSymbol A w ow) r) rest' := by
  obtain ⟨-, hw, h1, h8, hA⟩ := hpre
  induction S generalizing r rest with
  | nil => exact ⟨rest, hp, hlen, hlrc, rfl, fun _ => by simp [codes]⟩
  | cons ch S ih =>
    have hc := codeOf_lt hA ch
    obtain ⟨rest₁, hp₁, hlen₁, hlrc₁, hout₁⟩ := putUnit_pending (r := { r with lrc := r.lrc ^^^ codeOf A ch })
      hw h1 h8 hc ⟨hp.acc, hp.cnt⟩ hlen
    have hx : (r.lrc ^^^ codeOf A ch).toNat < 2 ^ w := by
      rw [BitVec.toNat_xor]
      exact Nat.xor_lt_two_pow hlrc hc
    obtain ⟨rest₂, hp₂, hlen₂, hlt₂, hlrc₂, hout₂⟩ := ih (packSymbol A w ow r ch) rest₁ hp₁ hlen₁ (by
      rw [packSymbol, hlrc₁]; exact hx)
    refine ⟨rest₂, hp₂, hlen₂, hlt₂, ?_, fun more => ?_⟩
    · rw [List.foldl_cons, hlrc₂, packSymbol, hlrc₁, codeOf_eq_codeIn]
      rfl
    · have h₁ := hout₁ ((codes A S).flatMap (unitBits w) ++ more)
      have h₂ := hout₂ more
      have hhead : codes A (ch :: S) = codeOf A ch :: codes A S := by rw [codeOf_eq_codeIn]; rfl
      rw [hhead, List.flatMap_cons, List.foldl_cons]
      simp only [List.append_assoc] at h₁ h₂ ⊢
      rw [h₂]
      exact h₁

/-- PACK's fresh registers have nothing pending (R93). -/
theorem pending_fresh : Pending {} [] := ⟨rfl, rfl⟩

/-- PACK's registers give the bytes of the bit stream of R43. -/
theorem packRun_out_eq_packed {A : Bytes} {w ow : Nat} (hpre : pre A w ow) (S : Bytes) :
    (packRun A w ow S).out = packed A w ow S := by
  have h1 : 1 ≤ ow := hpre.2.2.1
  obtain ⟨rest, hp, hlen, hlt, hlrc, hout⟩ := packSymbols_pending hpre S {} [] pending_fresh h1 (Nat.two_pow_pos w)
  obtain ⟨rest', hp', hlen', -, hout'⟩ := putUnit_pending hpre.2.1 h1 hpre.2.2.2.1 hlt hp hlen
  have hstream : (putUnit w ow (S.foldl (packSymbol A w ow) {}).lrc (S.foldl (packSymbol A w ow) {})).out ++
      groupBytes ow rest' = packed A w ow S := by
    have h := hout' []
    have h' := hout (unitBits w (lrcOf (codes A S)))
    rw [List.append_nil, List.append_nil, hlrc] at h
    rw [hlrc, h]
    simpa [packed_eq_groupBytes, packStream, lrcOf] using h'
  rw [← hstream, packRun, putResidue, hp'.cnt]
  split
  · next hpos =>
    rw [groupBytes_of_ne_nil h1 (List.ne_nil_of_length_pos hpos), List.take_of_length_le (by omega),
      List.drop_of_length_le (by omega), groupBytes_nil h1, ← hp'.acc]
    congr 2
  · next hpos =>
    obtain rfl := List.length_eq_zero_iff.mp (Nat.eq_zero_of_not_pos hpos)
    simp [h1]

/-- The length of PACK's output (R94). -/
theorem packed_length (A : Bytes) (w ow : Nat) (S : Bytes) :
    (packed A w ow S).length = packLength S.length w ow := by
  have hstream : (packStream A w S).length = (S.length + 1) * (w + 1) := by
    have h : ∀ cs : List Code, (cs.flatMap (unitBits w)).length = cs.length * (w + 1) := by
      intro cs
      induction cs with
      | nil => simp
      | cons c cs ih => rw [List.flatMap_cons, List.length_append, ih, unitBits_length, List.length_cons]; ring
    rw [packStream, h]
    simp [codes]
  simp [packed, groupsOf, hstream, packLength]

/-! ### UNPACK -/

/-- UNPACK's registers after `n` input bits: `ACC` within `CNT` (R16), `LRC` within the code width (R17), `LASTNZ` a position
that has been counted (R18), one symbol and one mark per position, and every bit either in a unit or pending. -/
structure UnpackBounds (w n : Nat) (r : UnpackRegs) : Prop where
  acc_lt : r.acc.toNat < 2 ^ r.cnt.toNat
  lrc_lt : r.lrc.toNat < 2 ^ w
  lastnz_lt : ∀ j, r.lastnz = some j → j < r.pos
  sym_len : r.sym.length = r.pos
  mrk_len : r.mrk.length = r.pos
  bits : r.pos * (w + 1) + r.cnt.toNat = n

theorem unpackBounds_fresh (w : Nat) : UnpackBounds w 0 {} := by
  constructor <;> simp

/-- A reversed code has `w` bits (R90). -/
theorem revW_lt {w : Nat} (hw : w ≤ 6) (f : Code) : (revW w f).toNat < 2 ^ w := by
  have hlt : (rev f).toNat < 2 ^ w * 2 ^ (6 - w) := by
    rw [← pow_add, show w + (6 - w) = 6 by omega]
    exact (rev f).isLt
  rw [revW, BitVec.toNat_ushiftRight, Nat.shiftRight_eq_div_pow]
  exact Nat.div_lt_of_lt_mul (by rwa [Nat.mul_comm])

/-- One unit taken from the top keeps the bounds (R99). -/
theorem takeUnit_bounds (A : Bytes) {w n : Nat} (hw : w ≤ 6) {r : UnpackRegs} (hr : UnpackBounds w n r)
    (h : w + 1 ≤ r.cnt.toNat) : UnpackBounds w n (takeUnit A w r) := by
  obtain ⟨hcnt, hpos, hsym, hmrk⟩ := takeUnit_cnt A w r
  have hlt := r.cnt.isLt
  constructor
  case acc_lt =>
    have hpow := Nat.pow_le_pow_right (n := 2) (by omega) (show r.cnt.toNat - (w + 1) ≤ 14 by omega)
    have hpow' := Nat.two_pow_pos (r.cnt.toNat - (w + 1))
    have hmask : (BitVec.ofNat 14 (2 ^ (r.cnt.toNat - (w + 1)) - 1)).toNat = 2 ^ (r.cnt.toNat - (w + 1)) - 1 := by
      rw [BitVec.toNat_ofNat, Nat.mod_eq_of_lt (by omega)]
    rw [hcnt]
    simp only [takeUnit, BitVec.toNat_and, hmask, Nat.and_two_pow_sub_one_eq_mod]
    exact Nat.mod_lt _ hpow'
  case lrc_lt =>
    simp only [takeUnit, BitVec.toNat_xor]
    exact Nat.xor_lt_two_pow hr.lrc_lt (revW_lt hw _)
  case lastnz_lt =>
    intro j hj
    rw [hpos]
    simp only [takeUnit] at hj
    split at hj
    · exact Nat.lt_succ_of_lt (hr.lastnz_lt j hj)
    · cases hj
      exact Nat.lt_succ_self _
  case sym_len => rw [hsym, hpos, hr.sym_len]
  case mrk_len => rw [hmrk, hpos, hr.mrk_len]
  case bits =>
    have := hr.bits
    rw [hpos, hcnt, Nat.succ_mul]
    omega

/-- The extract loop keeps the bounds and leaves less than a unit (R18, R99). -/
theorem takeUnits_bounds (A : Bytes) {w n : Nat} (hw : w ≤ 6) (k : Nat) (r : UnpackRegs) (hr : UnpackBounds w n r)
    (hk : r.cnt.toNat ≤ k) :
    UnpackBounds w n (takeUnits A w k r) ∧ (takeUnits A w k r).cnt.toNat < w + 1 := by
  induction k generalizing r with
  | zero => exact ⟨hr, Nat.lt_succ_of_le (Nat.le_trans hk (Nat.zero_le w))⟩
  | succ k ih =>
    rcases takeUnits_succ A w k r with ⟨hlt, he⟩ | ⟨hge, he⟩
    · rw [he]
      exact ⟨hr, hlt⟩
    · rw [he]
      exact ih _ (takeUnit_bounds A hw hr hge) (by rw [(takeUnit_cnt A w r).1]; omega)

/-- One input byte (R98, R99). -/
theorem unpackByte_bounds {A : Bytes} {w ow n : Nat} (hpre : pre A w ow) {r : UnpackRegs} (hr : UnpackBounds w n r)
    (hlt : r.cnt.toNat < w + 1) (p : Byte) :
    UnpackBounds w (n + ow) (unpackByte A w ow r p) ∧ (unpackByte A w ow r p).cnt.toNat < w + 1 := by
  obtain ⟨-, hw, h1, h8, -⟩ := hpre
  have hcnt : (BitVec.ofNat 4 (r.cnt.toNat + ow)).toNat = r.cnt.toNat + ow := by
    rw [BitVec.toNat_ofNat, Nat.mod_eq_of_lt (by omega)]
  refine takeUnits_bounds A hw 14 _ ?_ (by simp only [hcnt]; omega)
  constructor
  case acc_lt =>
    have hlow : ((p &&& lowMask ow).setWidth 14).toNat < 2 ^ (r.cnt.toNat + ow) := by
      have hmod := Nat.mod_lt p.toNat (Nat.two_pow_pos ow)
      have hle := Nat.pow_le_pow_right (n := 2) (by omega) (show ow ≤ r.cnt.toNat + ow by omega)
      rw [BitVec.toNat_setWidth, BitVec.toNat_and, lowMask_toNat ow h8, Nat.and_two_pow_sub_one_eq_mod]
      exact lt_of_le_of_lt (Nat.mod_le _ _) (by omega)
    have hhigh : (r.acc <<< ow).toNat < 2 ^ (r.cnt.toNat + ow) := by
      rw [BitVec.toNat_shiftLeft, Nat.shiftLeft_eq, pow_add]
      exact lt_of_le_of_lt (Nat.mod_le _ _) ((Nat.mul_lt_mul_right (Nat.two_pow_pos ow)).mpr hr.acc_lt)
    rw [hcnt, BitVec.toNat_or]
    exact Nat.or_lt_two_pow hhigh hlow
  case lrc_lt => exact hr.lrc_lt
  case lastnz_lt => exact hr.lastnz_lt
  case sym_len => exact hr.sym_len
  case mrk_len => exact hr.mrk_len
  case bits =>
    have := hr.bits
    rw [hcnt]
    simp only
    omega

/-- UNPACK's registers after all input bytes, from any registers within their bounds (R99). -/
theorem unpackBytes_bounds {A : Bytes} {w ow : Nat} (hpre : pre A w ow) (P : Bytes) (n : Nat) (r : UnpackRegs)
    (hr : UnpackBounds w n r) (hlt : r.cnt.toNat < w + 1) :
    UnpackBounds w (n + P.length * ow) (P.foldl (unpackByte A w ow) r) ∧
      (P.foldl (unpackByte A w ow) r).cnt.toNat < w + 1 := by
  induction P generalizing n r with
  | nil => exact ⟨by simpa using hr, hlt⟩
  | cons p P ih =>
    obtain ⟨hr', hlt'⟩ := unpackByte_bounds hpre hr hlt p
    have h := ih (n + ow) _ hr' hlt'
    rw [List.foldl_cons, List.length_cons, Nat.succ_mul, Nat.add_comm (P.length * ow), ← Nat.add_assoc]
    exact h

theorem unpackRun_bounds {A : Bytes} {w ow : Nat} (hpre : pre A w ow) (P : Bytes) :
    UnpackBounds w (P.length * ow) (unpackRun A w ow P) ∧ (unpackRun A w ow P).cnt.toNat < w + 1 := by
  have h := unpackBytes_bounds hpre P 0 {} (unpackBounds_fresh w) (Nat.succ_pos w)
  rwa [Nat.zero_add] at h

/-- The number of units UNPACK decodes (R100). -/
theorem unpackRun_pos {A : Bytes} {w ow : Nat} (hpre : pre A w ow) (P : Bytes) :
    (unpackRun A w ow P).pos = unpackLength P.length w ow := by
  obtain ⟨hb, hlt⟩ := unpackRun_bounds hpre P
  rw [unpackLength, ← hb.bits, Nat.mul_comm, Nat.mul_add_div (Nat.succ_pos w), Nat.div_eq_of_lt hlt, Nat.add_zero]

/-- Settles O11: PACK's registers hold fewer pending bits than a group, UNPACK's are within their bounds. -/
theorem accumulatorStaysBounded : Obligations.AccumulatorStaysBounded := by
  intro A w ow hpre
  constructor
  · intro S
    obtain ⟨rest, hp, hlen, hlt, -, -⟩ :=
      packSymbols_pending hpre S {} [] pending_fresh hpre.2.2.1 (Nat.two_pow_pos w)
    exact ⟨_, rfl, hp.acc_lt, hp.cnt ▸ hlen, hlt⟩
  · intro P
    obtain ⟨hb, hlt⟩ := unpackRun_bounds hpre P
    exact ⟨_, rfl, hb.acc_lt, hlt, hb.lrc_lt, hb.lastnz_lt⟩

/-- UNPACK's results are within their buffers when the count of its units is (R97, R100, R205). -/
theorem unpackResult_wf {A : Bytes} {w ow : Nat} (hpre : pre A w ow) (P : Bytes) {c : Config}
    (hfit : unpackLength P.length w ow ≤ c.bufMax) : (unpackResult (unpackRun A w ow P)).wf c := by
  obtain ⟨hb, -⟩ := unpackRun_bounds hpre P
  have hpos := unpackRun_pos hpre P
  constructor
  case bytes_fit =>
    simp only [unpackResult, List.length_take, hb.sym_len]
    omega
  case absent => exact fun h => absurd h (by simp [unpackResult])
  case marks_len => exact .inr (by simp [unpackResult, hb.sym_len, hb.mrk_len])
  case totlen_fit =>
    simp only [unpackResult]
    omega

end Sys2Proof.StateProofs

/-! PROOFS, part 3. What an operation can do, said once. `Runs i s ds u`: while `i`, started in `s`, runs and its
transactions with the command bytes `ds` have passed, the block can be in `u`. `Ends i s t`: `t` is one of the ways the
request ends. `exec_ends` holds every operation to them, and the invariants of part 4 are read off from them. -/

namespace Sys2Proof.StateProofs
open Sys2Proof.Machine Sys2Proof.Spec Sys2Proof.Laws

/-! ### The kinds of operations -/

/-- The operations that run the packer (R175). -/
def packs (i : Instr) : Prop := (∃ A w ow, i = .pack A w ow) ∨ i = .writeRaw

/-- The operations that run the unpacker (R173). -/
def unpacks (i : Instr) : Prop := (∃ A w ow, i = .unpack A w ow) ∨ i = .readRaw

/-- The operations that count in `MSTEP` (R178). -/
def countsSteps (i : Instr) : Prop := ∃ m1 m2 m3, i = .setBpi m1 m2 m3

/-- The operations that write a frame and await nothing (R143, R171). -/
def sendsOnly (i : Instr) : Prop := i = .send ∨ i = .reset ∨ i = .cmdReset

/-- The command bytes of the transactions of an operation, in order: those of its frames that await a response. -/
def exchanges (s : State) : Instr → List Bytes
  | .send => []
  | .reset => []
  | .cmdReset => []
  | i => commandsOf s i

/-- `MSTEP` in an operation started in `s` when `n` of its transactions have passed (R178). -/
def mstepAfter (i : Instr) (s : State) (n : Nat) : BitVec 2 :=
  match i with
  | .setBpi _ _ _ => BitVec.ofNat 2 n
  | _ => s.mstep

theorem mstepAfter_of_not_countsSteps {i : Instr} (h : ¬ countsSteps i) (s : State) (n : Nat) :
    mstepAfter i s n = s.mstep := by
  cases i with
  | setBpi m1 m2 m3 => exact absurd ⟨m1, m2, m3, rfl⟩ h
  | _ => rfl

theorem exchanges_prefix (s : State) (i : Instr) : exchanges s i <+: commandsOf s i := by
  cases i with
  | send | reset | cmdReset => exact List.nil_prefix
  | _ => exact List.prefix_rfl

theorem exchanges_of_sendsOnly {i : Instr} (h : sendsOnly i) (s : State) : exchanges s i = [] := by
  rcases h with rfl | rfl | rfl <;> rfl

theorem commandsOf_of_isPure {i : Instr} (h : isPure i = true) (s : State) : commandsOf s i = [] := by
  cases i with
  | pack | unpack | isoenc | isodec | rawenc | rawdec | parse => rfl
  | _ => cases h

/-- The operations with transactions: a single one, WRITE_RAW with its one, SET_BPI with one per mode byte (R82, R178). -/
theorem exchanges_cases (s : State) (i : Instr) :
    exchanges s i = [] ∨ (((transaction s i).isSome = true ∨ i = .writeRaw) ∧ (exchanges s i).length = 1) ∨
    ∃ m1 m2 m3, i = .setBpi m1 m2 m3 ∧ (exchanges s i).length = ([m1, m2, m3].filterMap id).length := by
  cases i with
  | setBpi m1 m2 m3 => exact .inr (.inr ⟨m1, m2, m3, rfl, by simp [exchanges, commandsOf, transaction, ownCommands]⟩)
  | writeRaw => exact .inr (.inl ⟨.inr rfl, rfl⟩)
  | pack | unpack | isoenc | isodec | rawenc | rawdec | send | parse | reset | cmdReset => exact .inl rfl
  | _ => exact .inr (.inl ⟨.inl rfl, rfl⟩)

/-! ### While an operation runs -/

/-- The states of an operation that has been taken up. -/
inductive Runs (i : Instr) (s : State) : List Bytes → State → Prop
  /-- The request is taken up (R200). -/
  | accepted (h : taken i s) : Runs i s [] { accept (selectCode i) s with mstep := mstepAfter i s 0 }
  /-- A PACK has ended (R16). -/
  | packed {ds : List Bytes} {u : State} (hu : Runs i s ds u) (h : packs i) : Runs i s ds (discardPackRegs u)
  /-- An UNPACK has ended (R16, R18). -/
  | unpacked {ds : List Bytes} {u : State} (hu : Runs i s ds u) (h : unpacks i) : Runs i s ds (discardUnpackRegs u)
  /-- A transaction has received a response and passed (R151, R178). -/
  | passed {ds : List Bytes} {u : State} {C : Bytes} {r : Response} {m : BitVec 2} (hu : Runs i s ds u)
      (hC : ds ++ [C] <+: exchanges s i) (he : early u ≠ []) (hr : isResponse u.cfg (accumulated u) r)
      (hm : m = mstepAfter i s (ds.length + 1)) :
      Runs i s (ds ++ [C]) { heard C u with rsp := r, tstate := .idle, mstep := m }

/-- The sizes the operands and the response have between two steps (R20, R22). -/
structure Sized (s : State) : Prop where
  cfg_wf : s.cfg.wf = true
  in0_fit : s.in0.bytes.length ≤ s.cfg.bufMax
  rsp_fit : s.rsp.imm.length + s.rsp.data.length ≤ s.cfg.bufMax

/-- What an operation may leave in a result buffer: a well-formed result, with flags and counts from the unpacker only. -/
structure GoodResult (i : Instr) (u : State) (o : OutBuf) : Prop where
  wf : Sized u → o.wf u.cfg
  flagless : ¬ unpacks i → o.marks = [] ∧ o.lrcErr = false ∧ o.totlen = 0

/-- The errors of the codecs: a precondition that names 0 or a strip, or a framing error about the operand or the response's
data (R193, R195). -/
inductive CodecError (u : State) : Err → Prop
  | precondition {k : Byte} (h : k.toNat ≤ 3) : CodecError u (.precondition k)
  | operand {offset : Nat} : CodecError u (.framing offset u.in0.bytes)
  | response {offset : Nat} : CodecError u (.framing offset u.rsp.data)

/-! ### How a request ends -/

/-- The ways a request for `i` made in `s` can end. -/
inductive Ends (i : Instr) (s : State) : State → Prop
  /-- It is turned away (R205). -/
  | refused (h : ¬ taken i s) : Ends i s s
  /-- It completes with all its commands written (R152, R200). -/
  | completed {u : State} {o0 o1 o2 : OutBuf} (hu : Runs i s (commandsOf s i) u)
      (h0 : GoodResult i u o0) (h1 : GoodResult i u o1) (h2 : GoodResult i u o2) :
      Ends i s (complete { u with out0 := o0, out1 := o1, out2 := o2 })
  /-- PARSE writes the response registers (R157). -/
  | parsed {r : Response} (ht : taken i s) (hi : i = .parse) (hr : isResponse s.cfg s.in0.bytes r) :
      Ends i s (complete { accept (selectCode i) s with rsp := r })
  /-- A frame that awaits nothing has been written (R143). -/
  | sent {C : Bytes} (ht : taken i s) (hi : sendsOnly i) (hC : commandsOf s i = [C]) :
      Ends i s (complete (sendFrame C (accept (selectCode i) s)))
  /-- A codec fails, WRITE_RAW's encoders apart, after all commands of the operation (R168). -/
  | codecFailed {u : State} {e : Err} (hu : Runs i s (commandsOf s i) u) (hw : i ≠ .writeRaw) (hb : ¬ countsSteps i)
      (he : CodecError u e) : Ends i s (raise e u)
  /-- WRITE_RAW's encoders fail before anything is written (R168, R175). -/
  | encodingFailed {u : State} {k : Byte} (hu : Runs i s [] u) (hw : i = .writeRaw) (hk : k.toNat ≤ 3) :
      Ends i s (raise (.precondition k) u)
  /-- A transaction times out (R149). -/
  | timedOut {ds : List Bytes} {u : State} {C : Bytes} (hu : Runs i s ds u) (hC : ds ++ [C] <+: exchanges s i)
      (he : early u = []) : Ends i s (raise .timeout (silent C u))
  /-- A transaction receives what is no response (R151, R158). -/
  | unparsable {ds : List Bytes} {u : State} {C : Bytes} (hu : Runs i s ds u) (hC : ds ++ [C] <+: exchanges s i)
      (he : early u ≠ []) (hr : parseResponse u.cfg (accumulated u) = none) :
      Ends i s (raise (.framing (accumulated u).length (accumulated u)) (heard C u))
  /-- A transaction receives another status than `ST_OK` (R167). -/
  | turnedDown {ds : List Bytes} {u : State} {C : Bytes} {r : Response} {arg : Byte} (hu : Runs i s ds u)
      (hC : ds ++ [C] <+: exchanges s i) (he : early u ≠ []) (hr : isResponse u.cfg (accumulated u) r)
      (hst : r.status ≠ u.cfg.stOK) :
      Ends i s (raise (.deviceStatus r.status arg) { heard C u with rsp := r, tstate := .idle })

/-- A result is a next state in which the request has ended. -/
def EndsIn (i : Instr) (s : State) (res : Result) : Prop := ∃ t, res = .next t ∧ Ends i s t

/-! ### Facts of a running operation -/

section
variable {i : Instr} {s u : State} {ds : List Bytes}

theorem Runs.taken (h : Runs i s ds u) : taken i s := by
  induction h with
  | accepted h => exact h
  | packed _ _ ih => exact ih
  | unpacked _ _ ih => exact ih
  | passed _ _ _ _ _ ih => exact ih

/-- The parameters, the operands and the ownership of the link are those of the start (R25, R28, R221). -/
theorem Runs.kept (h : Runs i s ds u) :
    u.cfg = s.cfg ∧ u.in0 = s.in0 ∧ u.in1 = s.in1 ∧ u.in2 = s.in2 ∧ u.linkOpen = s.linkOpen ∧ u.host = s.host := by
  induction h with
  | accepted => exact ⟨rfl, rfl, rfl, rfl, rfl, rfl⟩
  | packed _ _ ih => exact ih
  | unpacked _ _ ih => exact ih
  | passed _ _ _ _ _ ih => exact ih

theorem Runs.cfg (h : Runs i s ds u) : u.cfg = s.cfg := h.kept.1

/-- `OPSEL` names the operation, the error registers and the results are clear (R200). -/
theorem Runs.cleared (h : Runs i s ds u) : u.opsel = selectCode i ∧ u.err = {} ∧ u.resultsCleared := by
  induction h with
  | accepted => exact ⟨rfl, rfl, rfl, rfl, rfl⟩
  | packed _ _ ih => exact ih
  | unpacked _ _ ih => exact ih
  | passed _ _ _ _ _ ih => exact ih

/-- `MSTEP` counts the transactions of SET_BPI that have passed (R178). -/
theorem Runs.mstep (h : Runs i s ds u) : u.mstep = mstepAfter i s ds.length := by
  induction h with
  | accepted => rfl
  | packed _ _ ih => exact ih
  | unpacked _ _ ih => exact ih
  | passed _ _ _ _ hm _ => rw [hm, List.length_append]; rfl

/-- The transactions that have passed are the first of the operation's own. -/
theorem Runs.exchanged (h : Runs i s ds u) : ds <+: exchanges s i := by
  induction h with
  | accepted => exact List.nil_prefix
  | packed _ _ ih => exact ih
  | unpacked _ _ ih => exact ih
  | passed _ hC _ _ _ _ => exact hC

/-- After a transaction that passed, in an operation that counts no steps. -/
theorem Runs.passed_uncounted {C : Bytes} {r : Response} (h : Runs i s ds u) (hb : ¬ countsSteps i)
    (hC : ds ++ [C] <+: exchanges s i) (he : early u ≠ []) (hr : isResponse u.cfg (accumulated u) r) :
    Runs i s (ds ++ [C]) { heard C u with rsp := r, tstate := .idle } :=
  h.passed (m := u.mstep) hC he hr (by
    rw [h.mstep, mstepAfter_of_not_countsSteps hb, mstepAfter_of_not_countsSteps hb])

/-! ### The rules of the shared operations -/

/-- Taking up a request (R205). -/
theorem start_endsIn {op : OpSel} {f : Bool} {body : State → Result} (hop : op = selectCode i)
    (hf : f = true ↔ resultFits s i) (hb : Spec.taken i s → EndsIn i s (body (accept op s))) :
    EndsIn i s (start op f s body) := by
  subst hop
  rcases start_cases (selectCode i) f s body with ⟨hn, he⟩ | ⟨⟨hl, hbusy, hfit⟩, he⟩
  · exact ⟨s, he, .refused fun ⟨⟨hl, hbusy⟩, hfit⟩ => hn ⟨hl, hbusy, hf.mpr hfit⟩⟩
  · rw [he]
    exact hb ⟨⟨hl, hbusy⟩, hf.mp hfit⟩

/-- The start of an operation that counts no steps. -/
theorem runs_accept (h : Spec.taken i s) (hb : ¬ countsSteps i) : Runs i s [] (accept (selectCode i) s) := by
  have hrun := Runs.accepted h
  rwa [mstepAfter_of_not_countsSteps hb] at hrun

/-- Completion with three results. -/
theorem complete_endsIn {o0 o1 o2 : OutBuf} (hu : Runs i s (commandsOf s i) u) (h0 : GoodResult i u o0)
    (h1 : GoodResult i u o1) (h2 : GoodResult i u o2) :
    EndsIn i s (.next (complete { u with out0 := o0, out1 := o1, out2 := o2 })) :=
  ⟨_, rfl, .completed hu h0 h1 h2⟩

/-- A cleared result buffer. -/
theorem goodResult_clear (i : Instr) (u : State) : GoodResult i u {} where
  wf _ := ⟨Nat.zero_le _, fun _ => rfl, .inl rfl, Nat.zero_le _⟩
  flagless _ := ⟨rfl, rfl, rfl⟩

/-- A byte sequence that fits, as a result. -/
theorem goodResult_ofBytes {B : Bytes} (h : Sized u → B.length ≤ u.cfg.bufMax) : GoodResult i u (OutBuf.ofBytes B) where
  wf hs := ⟨h hs, by simp [OutBuf.ofBytes], .inl rfl, Nat.zero_le _⟩
  flagless _ := ⟨rfl, rfl, rfl⟩

/-- An optional strip that fits, as a result. -/
theorem goodResult_ofStrip {o : Option Bytes} (h : Sized u → ∀ B, o = some B → B.length ≤ u.cfg.bufMax) :
    GoodResult i u (OutBuf.ofStrip o) := by
  cases o with
  | none => exact goodResult_clear i u
  | some B => exact goodResult_ofBytes fun hs => h hs B rfl

/-- Completion with one result. -/
theorem complete_one_endsIn {o : OutBuf} (hu : Runs i s (commandsOf s i) u) (h : GoodResult i u o) :
    EndsIn i s (.next (complete { u with out0 := o })) := by
  obtain ⟨-, -, -, hc1, hc2⟩ := hu.cleared
  have h1 : GoodResult i u u.out1 := hc1 ▸ goodResult_clear i u
  have h2 : GoodResult i u u.out2 := hc2 ▸ goodResult_clear i u
  exact complete_endsIn hu h h1 h2

/-- Completion without a result. -/
theorem complete_none_endsIn (hu : Runs i s (commandsOf s i) u) : EndsIn i s (.next (complete u)) := by
  obtain ⟨-, -, hc0, -, -⟩ := hu.cleared
  have h0 : GoodResult i u u.out0 := hc0 ▸ goodResult_clear i u
  exact complete_one_endsIn hu h0

/-- A transaction (R152). -/
theorem sendWait_endsIn {C : Bytes} {timeout : Nat} {k : State → Result} (hu : Runs i s ds u)
    (hC : ds ++ [C] <+: exchanges s i)
    (hk : ∀ r, early u ≠ [] → isResponse u.cfg (accumulated u) r →
      EndsIn i s (k { heard C u with rsp := r, tstate := .idle })) :
    EndsIn i s (sendWait C timeout u k) := by
  rcases sendWait_outcome C timeout u k with ⟨he, h⟩ | ⟨he, hp, h⟩ | ⟨r, he, hr, h⟩
  · exact ⟨_, h, .timedOut hu hC he⟩
  · exact ⟨_, h, .unparsable hu hC he hp⟩
  · rw [h]
    exact hk r he hr

/-- A transaction with its status check (R167). -/
theorem command_endsIn {C : Bytes} {timeout : Nat} {arg : Byte} {k : State → Result} (hu : Runs i s ds u)
    (hC : ds ++ [C] <+: exchanges s i)
    (hk : ∀ r, early u ≠ [] → isResponse u.cfg (accumulated u) r →
      EndsIn i s (k { heard C u with rsp := r, tstate := .idle })) :
    EndsIn i s (command C timeout arg u k) := by
  refine sendWait_endsIn hu hC fun r he hr => ?_
  rcases check_cases arg { heard C u with rsp := r, tstate := .idle } k with ⟨-, h⟩ | ⟨hst, h⟩
  · rw [h]
    exact hk r he hr
  · exact ⟨_, h, .turnedDown hu hC he hr hst⟩

/-- An operation that is one transaction without a status check (R144). -/
theorem wireTransaction_endsIn {C : Bytes} {timeout : Nat} (ht : Spec.taken i s) (hb : ¬ countsSteps i)
    (hC : [C] = exchanges s i) (hC' : [C] = commandsOf s i) :
    EndsIn i s (wireTransaction C timeout (accept (selectCode i) s)) := by
  have hu := runs_accept ht hb
  have hpre : [] ++ [C] <+: exchanges s i := hC ▸ List.prefix_rfl
  exact sendWait_endsIn hu hpre fun r he hr => complete_none_endsIn (hC' ▸ hu.passed_uncounted hb hpre he hr)

/-- An operation that begins with its one checked transaction (R82). -/
theorem oneCommand_endsIn {C : Bytes} {timeout : Nat} {arg : Byte} {k : State → Result} (ht : Spec.taken i s)
    (hb : ¬ countsSteps i) (hC : [C] = exchanges s i) (hC' : [C] = commandsOf s i)
    (hk : ∀ v, Runs i s (commandsOf s i) v → EndsIn i s (k v)) :
    EndsIn i s (command C timeout arg (accept (selectCode i) s) k) := by
  have hu := runs_accept ht hb
  have hpre : [] ++ [C] <+: exchanges s i := hC ▸ List.prefix_rfl
  exact command_endsIn hu hpre fun r he hr => hk _ (hC' ▸ hu.passed_uncounted hb hpre he hr)

end

/-! ### The codecs -/

/-- The decoded strips are parts of the block (R116). -/
theorem isoDecode_length {c : Config} {B : Bytes} {o0 o1 o2 : Option Bytes} (h : isoDecode c B = .ok (o0, o1, o2)) :
    ∀ o ∈ [o0, o1, o2], ∀ S, o = some S → S.length ≤ B.length := by
  have hslice : ∀ a b S, optSlice B a b = some S → S.length ≤ B.length := by
    intro a b S hS
    unfold optSlice at hS
    split at hS
    · cases hS
    · cases hS
      rw [slice_length]
      omega
  simp only [isoDecode, isoStrips] at h
  split at h
  · cases h
  split at h
  · cases h
  split at h
  · cases h
  split at h
  · cases h
  split at h
  · cases h
  split at h
  · cases h
  cases h
  intro o ho S hS
  simp only [List.mem_cons, List.not_mem_nil, or_false] at ho
  rcases ho with rfl | rfl | rfl <;> exact hslice _ _ S hS

/-- The decoded strips are at most 255 bytes long (R72, R132). -/
theorem rawDecode_length {c : Config} {B p1 p2 p3 : Bytes} (h : rawDecode c B = .ok (p1, p2, p3)) :
    p1.length ≤ 255 ∧ p2.length ≤ 255 ∧ p3.length ≤ 255 := by
  simp only [rawDecode, bind, Except.bind] at h
  split at h
  · cases h
  split at h
  · cases h
  split at h
  · cases h
  next h1 =>
  split at h
  · cases h
  next h2 =>
  split at h
  · cases h
  next h3 =>
  split at h
  · cases h
  split at h
  · cases h
  cases h
  exact ⟨rawDecodeSegment_length h1, rawDecodeSegment_length h2, rawDecodeSegment_length h3⟩

/-- A segment as the encoder emits it (R72, R73). -/
theorem rawSegment_eq (c : Config) (k : Byte) (p : Bytes) : rawSegment c k p = if p = [] then [] else rawSeg c k p := by
  simp [rawSegment, rawSeg]

theorem rawSegment_length_le (c : Config) (k : Byte) (p : Bytes) : (rawSegment c k p).length ≤ 3 + p.length := by
  unfold rawSegment
  split
  · exact Nat.zero_le _
  · simp
    omega

/-- The raw encoder (R128, R129): the datablock of R72, at most 778 bytes, or the number of a strip. -/
theorem rawEncode_cases (c : Config) (p1 p2 p3 : Bytes) :
    (rawEncode c p1 p2 p3 = .ok (rawBlock c p1 p2 p3) ∧ (rawBlock c p1 p2 p3).length ≤ 778) ∨
    ∃ k, rawEncode c p1 p2 p3 = .error k ∧ k.toNat ≤ 3 := by
  unfold rawEncode
  cases h : firstTooLong p1 p2 p3 with
  | some k => exact .inr ⟨k, rfl, firstTooLong_le h⟩
  | none =>
    obtain ⟨h1, h2, h3⟩ := (firstTooLong_eq_none_iff p1 p2 p3).mp h
    have l1 := rawSegment_length_le c 1 p1
    have l2 := rawSegment_length_le c 2 p2
    have l3 := rawSegment_length_le c 3 p3
    have hblock : rawBlock c p1 p2 p3 =
        [c.esc, c.chS] ++ rawSegment c 1 p1 ++ rawSegment c 2 p2 ++ rawSegment c 3 p3 ++ [c.chQM, c.fs] := by
      simp only [rawBlock, rawSegment_eq]
    rw [hblock]
    refine .inl ⟨rfl, ?_⟩
    simp only [List.length_append, List.length_cons, List.length_nil]
    omega

/-- The ISO encoder gives the datablock of R69 (R113). -/
theorem isoEncode_eq_isoBlock (c : Config) (s1 s2 s3 : Bytes) : isoEncode c s1 s2 s3 = isoBlock c s1 s2 s3 := by
  simp [isoEncode, isoBlock]

theorem isoEncode_length (c : Config) (s1 s2 s3 : Bytes) :
    (isoEncode c s1 s2 s3).length = 10 + s1.length + s2.length + s3.length := by
  simp [isoEncode]
  omega

/-- An absent strip is empty in a datablock (R174). -/
theorem stripOrEmpty_eq_presentBytes (b : InBuf) : stripOrEmpty b = presentBytes b := by
  unfold stripOrEmpty presentBytes InBuf.strip
  cases b.present <;> rfl

theorem eraseMask_eq_trackMask : ∀ t1 t2 t3 : Bool, eraseMask t1 t2 t3 = trackMask t1 t2 t3 := by decide

/-- The model's precondition check is that of R91. -/
theorem packerPre_iff_pre (A : Bytes) (w ow : Nat) : packerPre A w ow = true ↔ pre A w ow :=
  packerPre_iff A w ow

/-- What well-formed parameters give the codecs: room for 779 bytes and for every unpacked track (R205, R219). -/
theorem Sized.bounds {u : State} (h : Sized u) :
    780 ≤ u.cfg.bufMax ∧ u.cfg.track1.wf u.cfg = true ∧ u.cfg.track2.wf u.cfg = true ∧ u.cfg.track3.wf u.cfg = true := by
  obtain ⟨-, -, -, h1, h2, h3, hd⟩ := (config_wf_iff u.cfg).mp h.cfg_wf
  have := drainMax_lt_bufMax u.cfg
  exact ⟨by omega, h1, h2, h3⟩

/-! ### Codecs inside an operation -/

section
variable {i : Instr} {s u : State} {ds : List Bytes}

/-- ISODEC of the operand or of the response's data ends an operation (R115, R116, R172). -/
theorem isoDecodeTo_endsIn {B : Bytes} (hu : Runs i s (commandsOf s i) u) (hw : i ≠ .writeRaw) (hb : ¬ countsSteps i)
    (hB : B = u.in0.bytes ∨ B = u.rsp.data) : EndsIn i s (isoDecodeTo B u) := by
  have hfit : Sized u → B.length ≤ u.cfg.bufMax := by
    rintro ⟨-, hin, hrsp⟩
    rcases hB with rfl | rfl <;> omega
  rcases isoDecodeTo_cases B u with ⟨o0, o1, o2, hd, h⟩ | ⟨offset, -, h⟩
  · rw [h]
    have hlen := isoDecode_length hd
    have good : ∀ o ∈ [o0, o1, o2], GoodResult i u (OutBuf.ofStrip o) := fun o ho =>
      goodResult_ofStrip fun hs S hS => Nat.le_trans (hlen o ho S hS) (hfit hs)
    exact complete_endsIn hu (good o0 (by simp)) (good o1 (by simp)) (good o2 (by simp))
  · refine ⟨_, h, .codecFailed hu hw hb ?_⟩
    rcases hB with rfl | rfl
    · exact .operand
    · exact .response

/-- One track of READ_RAW (R173). -/
theorem unpackTrack_endsIn {t : TrackCfg} {P : Bytes} {k : OutBuf → State → Result}
    (hu : Runs i s (commandsOf s i) u) (hi : i = .readRaw)
    (hk : ∀ o, (t.wf u.cfg = true → P.length ≤ 255 → o.wf u.cfg) → EndsIn i s (k o (discardUnpackRegs u))) :
    EndsIn i s (unpackTrack t P u k) := by
  subst hi
  rcases unpack_cases (alphabet u.cfg t.sel) t.codeWidth.toNat t.outputWidth.toNat P u k with ⟨hp, h⟩ | ⟨-, h⟩
  · rw [unpackTrack, h]
    refine hk _ fun hwf hlen => unpackResult_wf ((packerPre_iff_pre ..).mp hp) P ?_
    obtain ⟨-, -, -, -, -, hfit⟩ := (track_wf_iff u.cfg t).mp hwf
    exact Nat.le_trans (Nat.div_le_div_right (Nat.mul_le_mul_right _ hlen)) hfit
  · exact ⟨_, h, .codecFailed hu (by simp) (by simp [countsSteps]) (.precondition (by decide))⟩

/-- One track of WRITE_RAW (R175). -/
theorem packOptional_endsIn {t : TrackCfg} {b : InBuf} {k : Bytes → State → Result}
    (hu : Runs i s [] u) (hi : i = .writeRaw)
    (hk : ∀ v, Runs i s [] v → EndsIn i s (k (packedStrip s.cfg t b) v)) :
    EndsIn i s (packOptional t b.strip u k) := by
  unfold packedStrip at hk
  rcases packOptional_cases t b u k with ⟨hb, h⟩ | ⟨hb, h⟩
  · rw [h]
    simpa [hb] using hk u hu
  · rw [h, packTrack]
    rcases pack_cases (alphabet u.cfg t.sel) t.codeWidth.toNat t.outputWidth.toNat b.bytes u k with ⟨hp, h⟩ | ⟨-, h⟩
    · rw [h, packRun_out_eq_packed ((packerPre_iff_pre ..).mp hp), hu.cfg]
      simpa [hb] using hk _ (hu.packed (.inr hi))
    · exact ⟨_, h, .encodingFailed hu hi (by decide)⟩

/-- The command of one optional mode byte of SET_BPI (R178). -/
def modeCommand (s : State) (m : Option Byte) : List Bytes := m.toList.map fun b => [s.cfg.opcSetBpi, b]

/-- One track of SET_BPI (R178). -/
theorem setBpiTrack_endsIn {m : Option Byte} {k : State → Result} (hu : Runs i s ds u) (hi : countsSteps i)
    (hC : ds ++ modeCommand s m <+: exchanges s i)
    (hk : ∀ v, Runs i s (ds ++ modeCommand s m) v → EndsIn i s (k v)) : EndsIn i s (setBpiTrack m u k) := by
  obtain ⟨m1, m2, m3, rfl⟩ := hi
  cases m with
  | none =>
    rw [modeCommand, Option.toList_none, List.map_nil, List.append_nil] at hk
    exact hk u hu
  | some b =>
    have hcmd : modeCommand s (some b) = [[u.cfg.opcSetBpi, b]] := by rw [hu.cfg]; rfl
    rw [hcmd] at hC hk
    exact command_endsIn hu hC fun r he hr => hk _ (hu.passed hC he hr (by
      rw [show (heard [u.cfg.opcSetBpi, b] u).mstep = u.mstep from rfl, hu.mstep]
      exact (BitVec.ofNat_add ..).symm))

end

end Sys2Proof.StateProofs

/-! PROOFS, part 4. Every operation ends in one of the ways of `Ends`: one lemma per operation with its own expansion, the
one-transaction operations by the two rules for them. -/

namespace Sys2Proof.StateProofs
open Sys2Proof.Machine Sys2Proof.Spec Sys2Proof.Laws

variable (s : State)

theorem execPack_endsIn (A : Bytes) (w ow : Nat) : EndsIn (.pack A w ow) s (execPack A w ow s) := by
  refine start_endsIn rfl ?_ fun ht => ?_
  · rw [packFits_iff, packerPre_iff_pre]
    rfl
  · have hu : Runs (.pack A w ow) s [] (accept 0x01 s) := runs_accept ht (by simp [countsSteps])
    rcases pack_cases A w ow s.in0.bytes (accept 0x01 s)
      (fun P s => .next (complete { s with out0 := OutBuf.ofBytes P })) with ⟨hp, h⟩ | ⟨-, h⟩
    · have hpre := (packerPre_iff_pre ..).mp hp
      have hlen : (packRun A w ow s.in0.bytes).out.length ≤ s.cfg.bufMax := by
        rw [packRun_out_eq_packed hpre, packed_length]
        exact ht.2 hpre
      exact h ▸ complete_one_endsIn (hu.packed (.inl ⟨A, w, ow, rfl⟩)) (goodResult_ofBytes fun _ => hlen)
    · exact ⟨_, h, .codecFailed hu (by simp) (by simp [countsSteps]) (.precondition (by decide))⟩

theorem execUnpack_endsIn (A : Bytes) (w ow : Nat) : EndsIn (.unpack A w ow) s (execUnpack A w ow s) := by
  refine start_endsIn rfl ?_ fun ht => ?_
  · rw [unpackFits_iff, packerPre_iff_pre]
    rfl
  · have hu : Runs (.unpack A w ow) s [] (accept 0x02 s) := runs_accept ht (by simp [countsSteps])
    have hkind : unpacks (.unpack A w ow) := .inl ⟨A, w, ow, rfl⟩
    rcases unpack_cases A w ow s.in0.bytes (accept 0x02 s)
      (fun o s => .next (complete { s with out0 := o })) with ⟨hp, h⟩ | ⟨-, h⟩
    · have hpre := (packerPre_iff_pre ..).mp hp
      have hgood : GoodResult (.unpack A w ow) (discardUnpackRegs (accept 0x02 s))
          (unpackResult (unpackRun A w ow s.in0.bytes)) :=
        ⟨fun _ => unpackResult_wf hpre _ (ht.2 hpre), fun hn => absurd hkind hn⟩
      exact h ▸ complete_one_endsIn (hu.unpacked hkind) hgood
    · exact ⟨_, h, .codecFailed hu (by simp) (by simp [countsSteps]) (.precondition (by decide))⟩

theorem execIsoenc_endsIn : EndsIn .isoenc s (execIsoenc s) := by
  refine start_endsIn rfl (fits_iff ..) fun ht => ?_
  have hlen : (isoEncode s.cfg s.in0.bytes s.in1.bytes s.in2.bytes).length ≤ s.cfg.bufMax := by
    rw [isoEncode_length]
    exact ht.2
  exact complete_one_endsIn (runs_accept ht (by simp [countsSteps])) (goodResult_ofBytes fun _ => hlen)

theorem execIsodec_endsIn : EndsIn .isodec s (execIsodec s) :=
  start_endsIn rfl (by simp [resultFits]) fun ht =>
    isoDecodeTo_endsIn (runs_accept ht (by simp [countsSteps])) (by simp) (by simp [countsSteps]) (.inl rfl)

theorem execRawenc_endsIn : EndsIn .rawenc s (execRawenc s) := by
  refine start_endsIn rfl (by simp [resultFits]) fun ht => ?_
  have hu : Runs .rawenc s [] (accept 0x05 s) := runs_accept ht (by simp [countsSteps])
  rcases rawEncode_cases s.cfg s.in0.bytes s.in1.bytes s.in2.bytes with ⟨h, hlen⟩ | ⟨k, h, hk⟩
  · simp only [accept_cfg, accept_in0, accept_in1, accept_in2, h]
    exact complete_one_endsIn hu (goodResult_ofBytes fun hs => by have := hs.bounds.1; omega)
  · simp only [accept_cfg, accept_in0, accept_in1, accept_in2, h]
    exact ⟨_, rfl, .codecFailed hu (by simp) (by simp [countsSteps]) (.precondition hk)⟩

theorem execRawdec_endsIn : EndsIn .rawdec s (execRawdec s) := by
  refine start_endsIn rfl (by simp [resultFits]) fun ht => ?_
  have hu : Runs .rawdec s [] (accept 0x06 s) := runs_accept ht (by simp [countsSteps])
  cases h : rawDecode s.cfg s.in0.bytes with
  | ok v =>
    obtain ⟨p1, p2, p3⟩ := v
    obtain ⟨h1, h2, h3⟩ := rawDecode_length h
    have good : ∀ p : Bytes, p.length ≤ 255 → GoodResult .rawdec (accept 0x06 s) (OutBuf.ofBytes p) := fun p hp =>
      goodResult_ofBytes fun hs => by have := hs.bounds.1; omega
    simp only [accept_cfg, accept_in0, h]
    exact complete_endsIn hu (good p1 h1) (good p2 h2) (good p3 h3)
  | error offset =>
    simp only [accept_cfg, accept_in0, h]
    exact ⟨_, rfl, .codecFailed hu (by simp) (by simp [countsSteps]) .operand⟩

theorem execParse_endsIn : EndsIn .parse s (execParse s) := by
  refine start_endsIn rfl (by simp [resultFits]) fun ht => ?_
  cases h : parseResponse s.cfg s.in0.bytes with
  | some r =>
    simp only [accept_cfg, accept_in0, h]
    exact ⟨_, rfl, .parsed ht rfl ((parseResponse_iff_isResponse ..).mp h)⟩
  | none =>
    simp only [accept_cfg, accept_in0, h]
    exact ⟨_, rfl, .codecFailed (runs_accept ht (by simp [countsSteps])) (by simp) (by simp [countsSteps]) .operand⟩

/-- SEND, RESET and the wire command reset (R143, R171). -/
theorem sendFrame_endsIn {i : Instr} {C : Bytes} (hi : sendsOnly i) (hC : commandsOf s i = [C]) :
    EndsIn i s (start (selectCode i) true s fun s => .next (complete (sendFrame C s))) :=
  start_endsIn rfl (by rcases hi with rfl | rfl | rfl <;> simp [resultFits]) fun ht => ⟨_, rfl, .sent ht hi hC⟩

theorem execReadIso_endsIn : EndsIn .readIso s (execReadIso s) :=
  start_endsIn rfl (by simp [resultFits]) fun ht =>
    oneCommand_endsIn ht (by simp [countsSteps]) rfl rfl fun _ hv =>
      isoDecodeTo_endsIn hv (by simp) (by simp [countsSteps]) (.inr rfl)

theorem execReadRaw_endsIn : EndsIn .readRaw s (execReadRaw s) := by
  refine start_endsIn rfl (by simp [resultFits]) fun ht =>
    oneCommand_endsIn ht (by simp [countsSteps]) rfl rfl fun v hv => ?_
  cases h : rawDecode v.cfg v.rsp.data with
  | error offset => exact ⟨_, rfl, .codecFailed hv (by simp) (by simp [countsSteps]) .response⟩
  | ok p =>
    obtain ⟨p1, p2, p3⟩ := p
    obtain ⟨h1, h2, h3⟩ := rawDecode_length h
    have hkind : unpacks .readRaw := .inr rfl
    have hv1 := hv.unpacked hkind
    have hv2 := hv1.unpacked hkind
    have hv3 := hv2.unpacked hkind
    refine unpackTrack_endsIn hv rfl fun o1 ho1 => unpackTrack_endsIn hv1 rfl fun o2 ho2 =>
      unpackTrack_endsIn hv2 rfl fun o3 ho3 => complete_endsIn hv3 ?_ ?_ ?_
    · exact ⟨fun hs => ho1 hs.bounds.2.1 h1, fun hn => absurd hkind hn⟩
    · exact ⟨fun hs => ho2 hs.bounds.2.2.1 h2, fun hn => absurd hkind hn⟩
    · exact ⟨fun hs => ho3 hs.bounds.2.2.2 h3, fun hn => absurd hkind hn⟩

theorem execWriteIso_endsIn : EndsIn .writeIso s (execWriteIso s) := by
  refine start_endsIn rfl (by simp [resultFits]) fun ht => ?_
  simp only [isoEncode_eq_isoBlock, stripOrEmpty_eq_presentBytes]
  exact oneCommand_endsIn ht (by simp [countsSteps]) rfl rfl fun _ hv => complete_none_endsIn hv

theorem execWriteRaw_endsIn : EndsIn .writeRaw s (execWriteRaw s) := by
  refine start_endsIn rfl (by simp [resultFits]) fun ht => ?_
  have hu : Runs .writeRaw s [] (accept 0x14 s) := runs_accept ht (by simp [countsSteps])
  refine packOptional_endsIn hu rfl fun v1 hv1 => ?_
  obtain ⟨c1, -, in1, -, -, -⟩ := hv1.kept
  simp only [c1, in1]
  refine packOptional_endsIn hv1 rfl fun v2 hv2 => ?_
  obtain ⟨c2, -, -, in2, -, -⟩ := hv2.kept
  simp only [c2, in2]
  refine packOptional_endsIn hv2 rfl fun v3 hv3 => ?_
  rw [hv3.cfg]
  rcases rawEncode_cases s.cfg (packedStrip s.cfg s.cfg.track1 s.in0) (packedStrip s.cfg s.cfg.track2 s.in1)
    (packedStrip s.cfg s.cfg.track3 s.in2) with ⟨h, -⟩ | ⟨k, h, hk⟩
  · simp only [accept_cfg, accept_in0, h]
    exact command_endsIn hv3 List.prefix_rfl fun r he hr =>
      complete_none_endsIn (hv3.passed_uncounted (by simp [countsSteps]) List.prefix_rfl he hr)
  · simp only [accept_cfg, accept_in0, h]
    exact ⟨_, rfl, .encodingFailed hv3 rfl hk⟩

theorem execErase_endsIn (t1 t2 t3 : Bool) : EndsIn (.erase t1 t2 t3) s (execErase t1 t2 t3 s) := by
  refine start_endsIn rfl (by simp [resultFits]) fun ht => ?_
  rw [eraseMask_eq_trackMask]
  exact oneCommand_endsIn ht (by simp [countsSteps]) rfl rfl fun _ hv => complete_none_endsIn hv

theorem execSetHico_endsIn : EndsIn .setHico s (execSetHico s) :=
  start_endsIn rfl (by simp [resultFits]) fun ht =>
    oneCommand_endsIn ht (by simp [countsSteps]) rfl rfl fun _ hv => complete_none_endsIn hv

theorem execSetLoco_endsIn : EndsIn .setLoco s (execSetLoco s) :=
  start_endsIn rfl (by simp [resultFits]) fun ht =>
    oneCommand_endsIn ht (by simp [countsSteps]) rfl rfl fun _ hv => complete_none_endsIn hv

theorem execSetBpc_endsIn (b1 b2 b3 : Byte) : EndsIn (.setBpc b1 b2 b3) s (execSetBpc b1 b2 b3 s) :=
  start_endsIn rfl (by simp [resultFits]) fun ht =>
    oneCommand_endsIn ht (by simp [countsSteps]) rfl rfl fun _ hv => complete_none_endsIn hv

/-- The commands of SET_BPI, track by track (R178). -/
theorem commandsOf_setBpi (m1 m2 m3 : Option Byte) :
    commandsOf s (.setBpi m1 m2 m3) = modeCommand s m1 ++ modeCommand s m2 ++ modeCommand s m3 := by
  cases m1 <;> cases m2 <;> cases m3 <;> rfl

theorem execSetBpi_endsIn (m1 m2 m3 : Option Byte) : EndsIn (.setBpi m1 m2 m3) s (execSetBpi m1 m2 m3 s) := by
  refine start_endsIn rfl (by simp [resultFits]) fun ht => ?_
  have hkind : countsSteps (.setBpi m1 m2 m3) := ⟨m1, m2, m3, rfl⟩
  have hall : exchanges s (.setBpi m1 m2 m3) = modeCommand s m1 ++ modeCommand s m2 ++ modeCommand s m3 :=
    commandsOf_setBpi s m1 m2 m3
  refine setBpiTrack_endsIn (.accepted ht) hkind ?_ fun _ h1 => setBpiTrack_endsIn h1 hkind ?_ fun _ h2 =>
    setBpiTrack_endsIn h2 hkind ?_ fun _ h3 => complete_none_endsIn ?_
  · rw [hall, List.nil_append, List.append_assoc]
    exact List.prefix_append ..
  · rw [hall, List.nil_append]
    exact List.prefix_append ..
  · rw [hall, List.nil_append]
  · rwa [commandsOf_setBpi, ← List.nil_append (modeCommand s m1)]

theorem execSendwait_endsIn (timeout : Nat) : EndsIn (.sendwait timeout) s (execSendwait timeout s) :=
  start_endsIn rfl (by simp [resultFits]) fun ht => wireTransaction_endsIn ht (by simp [countsSteps]) rfl rfl

/-- A wire command that awaits a response (R64); its command bytes and timeout are read from the accepted state. -/
theorem wireCommand_endsIn {i : Instr} (C : State → Bytes) (timeout : State → Nat) (hb : ¬ countsSteps i)
    (hf : resultFits s i) (hC : [C (accept (selectCode i) s)] = exchanges s i)
    (hC' : [C (accept (selectCode i) s)] = commandsOf s i) :
    EndsIn i s (start (selectCode i) true s fun u => wireTransaction (C u) (timeout u) u) :=
  start_endsIn rfl (iff_of_true rfl hf) fun ht => wireTransaction_endsIn ht hb hC hC'

/-- Every request ends in one of the ways of `Ends`; the block never stops (R154, R197, R201). -/
theorem exec_endsIn (i : Instr) : EndsIn i s (exec i s) := by
  cases i with
  | pack A w ow => exact execPack_endsIn s A w ow
  | unpack A w ow => exact execUnpack_endsIn s A w ow
  | isoenc => exact execIsoenc_endsIn s
  | isodec => exact execIsodec_endsIn s
  | rawenc => exact execRawenc_endsIn s
  | rawdec => exact execRawdec_endsIn s
  | send => exact sendFrame_endsIn s (.inl rfl) rfl
  | sendwait timeout => exact execSendwait_endsIn s timeout
  | parse => exact execParse_endsIn s
  | reset => exact sendFrame_endsIn s (.inr (.inl rfl)) rfl
  | readIso => exact execReadIso_endsIn s
  | readRaw => exact execReadRaw_endsIn s
  | writeIso => exact execWriteIso_endsIn s
  | writeRaw => exact execWriteRaw_endsIn s
  | erase t1 t2 t3 => exact execErase_endsIn s t1 t2 t3
  | setHico => exact execSetHico_endsIn s
  | setLoco => exact execSetLoco_endsIn s
  | setBpi m1 m2 m3 => exact execSetBpi_endsIn s m1 m2 m3
  | setBpc b1 b2 b3 => exact execSetBpc_endsIn s b1 b2 b3
  | cmdReset => exact sendFrame_endsIn s (.inr (.inr rfl)) rfl
  | cmdReadIso =>
    exact wireCommand_endsIn s (fun u => [u.cfg.opcReadIso]) (·.cfg.tLong) (by simp [countsSteps]) trivial rfl rfl
  | cmdReadRaw =>
    exact wireCommand_endsIn s (fun u => [u.cfg.opcReadRaw]) (·.cfg.tLong) (by simp [countsSteps]) trivial rfl rfl
  | cmdWriteIso block =>
    exact wireCommand_endsIn s (fun u => u.cfg.opcWriteIso :: block) (·.cfg.tLong) (by simp [countsSteps]) trivial rfl rfl
  | cmdWriteRaw block =>
    exact wireCommand_endsIn s (fun u => u.cfg.opcWriteRaw :: block) (·.cfg.tLong) (by simp [countsSteps]) trivial rfl rfl
  | cmdErase mask =>
    exact wireCommand_endsIn s (fun u => [u.cfg.opcErase, mask]) (·.cfg.tLong) (by simp [countsSteps]) trivial rfl rfl
  | cmdSetBpc b1 b2 b3 =>
    exact wireCommand_endsIn s (fun u => [u.cfg.opcSetBpc, b1, b2, b3]) (·.cfg.tShort) (by simp [countsSteps]) trivial rfl rfl
  | cmdSetBpi mode =>
    exact wireCommand_endsIn s (fun u => [u.cfg.opcSetBpi, mode]) (·.cfg.tShort) (by simp [countsSteps]) trivial rfl rfl
  | cmdSetHico =>
    exact wireCommand_endsIn s (fun u => [u.cfg.opcSetHico]) (·.cfg.tShort) (by simp [countsSteps]) trivial rfl rfl
  | cmdSetLoco =>
    exact wireCommand_endsIn s (fun u => [u.cfg.opcSetLoco]) (·.cfg.tShort) (by simp [countsSteps]) trivial rfl rfl

/-- The next state of an operation is one of its ends. -/
theorem ends_of_exec {i : Instr} {s t : State} (h : exec i s = .next t) : Ends i s t := by
  obtain ⟨t', h', he⟩ := exec_endsIn s i
  rw [h] at h'
  cases h'
  exact he

end Sys2Proof.StateProofs

/-! PROOFS, part 5. What an operation keeps, what it writes to the link and to the response registers, which registers only
the packing operations write: read off from the ways an operation can end. -/

namespace Sys2Proof.StateProofs
open Sys2Proof.Machine Sys2Proof.Spec Sys2Proof.Laws

variable {i : Instr} {s t u : State} {ds : List Bytes}

/-! ### What an operation keeps -/

/-- No operation writes a parameter, an operand, the link's ownership or the host's plan; the operations that count no steps
leave `MSTEP` (R25, R28, R170, R221). -/
structure Kept (i : Instr) (s t : State) : Prop where
  cfg : t.cfg = s.cfg
  in0 : t.in0 = s.in0
  in1 : t.in1 = s.in1
  in2 : t.in2 = s.in2
  linkOpen : t.linkOpen = s.linkOpen
  host : t.host = s.host
  mstep : ¬ countsSteps i → t.mstep = s.mstep

theorem Runs.keeps (hu : Runs i s ds u) : Kept i s u := by
  obtain ⟨hcfg, hin0, hin1, hin2, hopen, hhost⟩ := hu.kept
  exact ⟨hcfg, hin0, hin1, hin2, hopen, hhost, fun hb => hu.mstep.trans (mstepAfter_of_not_countsSteps hb s _)⟩

theorem Ends.keeps (h : Ends i s t) : Kept i s t := by
  cases h with
  | refused => exact ⟨rfl, rfl, rfl, rfl, rfl, rfl, fun _ => rfl⟩
  | completed hu => exact { hu.keeps with }
  | parsed => exact ⟨rfl, rfl, rfl, rfl, rfl, rfl, fun _ => rfl⟩
  | sent =>
    rw [sendFrame_eq]
    exact ⟨rfl, rfl, rfl, rfl, rfl, rfl, fun _ => rfl⟩
  | codecFailed hu => exact { hu.keeps with }
  | encodingFailed hu => exact { hu.keeps with }
  | timedOut hu => exact { hu.keeps with }
  | unparsable hu => exact { hu.keeps with }
  | turnedDown hu => exact { hu.keeps with }

/-- Settles O47, from what every end of an operation keeps. -/
theorem operandsParametersAndMstepAreKept : Obligations.OperandsParametersAndMstepAreKept := by
  intro i s t h
  obtain ⟨hcfg, hin0, hin1, hin2, hopen, hhost, hmstep⟩ := (ends_of_exec h).keeps
  exact ⟨hcfg, hin0, hin1, hin2, hopen, hhost, fun hb => hmstep fun ⟨m1, m2, m3, he⟩ => hb m1 m2 m3 he⟩

/-! ### Flags, counts and working registers -/

/-- The working registers: `POS` and `LASTNZ` are UNPACK's alone, `ACC`, `CNT` and `LRC` the packer's and the unpacker's (R16
to R18). -/
structure WorkingKept (i : Instr) (s t : State) : Prop where
  position : ¬ unpacks i → t.pos = s.pos ∧ t.lastnz = s.lastnz
  accumulator : ¬ packs i → ¬ unpacks i → t.acc = s.acc ∧ t.cnt = s.cnt ∧ t.lrc = s.lrc

theorem Runs.workingKept (hu : Runs i s ds u) : WorkingKept i s u := by
  induction hu with
  | accepted => exact ⟨fun _ => ⟨rfl, rfl⟩, fun _ _ => ⟨rfl, rfl, rfl⟩⟩
  | packed _ h ih => exact ⟨ih.position, fun hn => absurd h hn⟩
  | unpacked _ h _ => exact ⟨fun hn => absurd h hn, fun _ hn => absurd h hn⟩
  | passed _ _ _ _ _ ih => exact { ih with }

theorem Ends.workingKept (h : Ends i s t) : WorkingKept i s t := by
  cases h with
  | refused => exact ⟨fun _ => ⟨rfl, rfl⟩, fun _ _ => ⟨rfl, rfl, rfl⟩⟩
  | completed hu => exact { hu.workingKept with }
  | parsed => exact ⟨fun _ => ⟨rfl, rfl⟩, fun _ _ => ⟨rfl, rfl, rfl⟩⟩
  | sent =>
    rw [sendFrame_eq]
    exact ⟨fun _ => ⟨rfl, rfl⟩, fun _ _ => ⟨rfl, rfl, rfl⟩⟩
  | codecFailed hu => exact { hu.workingKept with }
  | encodingFailed hu => exact { hu.workingKept with }
  | timedOut hu => exact { hu.workingKept with }
  | unparsable hu => exact { hu.workingKept with }
  | turnedDown hu => exact { hu.workingKept with }

/-- What a request that is taken up leaves in the result buffers: good results, cleared ones among them. -/
theorem Ends.goodResults (h : Ends i s t) (ht : taken i s) :
    ∃ u, GoodResult i u t.out0 ∧ GoodResult i u t.out1 ∧ GoodResult i u t.out2 := by
  have clear := goodResult_clear i s
  cases h with
  | refused hn => exact absurd ht hn
  | completed _ h0 h1 h2 => exact ⟨_, h0, h1, h2⟩
  | sent => rw [sendFrame_eq]; exact ⟨s, clear, clear, clear⟩
  | _ => exact ⟨s, clear, clear, clear⟩

/-- Settles O48: flags and counts come with an UNPACK's result only, and only the two discards write working registers. -/
theorem flagsAndWorkingRegistersByPackerOnly : Obligations.FlagsAndWorkingRegistersByPackerOnly := by
  intro i s t ht h
  have hends := ends_of_exec h
  have not_unpacks : (∀ A w ow, i ≠ .unpack A w ow) → i ≠ .readRaw → ¬ unpacks i := by
    rintro hu hr (⟨A, w, ow, he⟩ | he)
    · exact hu A w ow he
    · exact hr he
  have not_packs : (∀ A w ow, i ≠ .pack A w ow) → i ≠ .writeRaw → ¬ packs i := by
    rintro hp hw (⟨A, w, ow, he⟩ | he)
    · exact hp A w ow he
    · exact hw he
  refine ⟨fun hu hr o ho => ?_, fun hu hr => hends.workingKept.position (not_unpacks hu hr),
    fun hp hu hr hw => hends.workingKept.accumulator (not_packs hp hw) (not_unpacks hu hr)⟩
  simp only [List.mem_cons, List.not_mem_nil, or_false] at ho
  obtain ⟨u, h0, h1, h2⟩ := hends.goodResults ht
  rcases ho with rfl | rfl | rfl
  · exact h0.flagless (not_unpacks hu hr)
  · exact h1.flagless (not_unpacks hu hr)
  · exact h2.flagless (not_unpacks hu hr)

/-! ### The transmit stream -/

theorem framesOf_append (c : Config) (Cs Ds : List Bytes) : framesOf c (Cs ++ Ds) = framesOf c Cs ++ framesOf c Ds := by
  simp [framesOf]

/-- `TXS` has grown by the frames of the transactions that passed (R23, R141). -/
theorem Runs.txs (hu : Runs i s ds u) : u.txs = s.txs ++ framesOf s.cfg ds := by
  induction hu with
  | accepted => simp [framesOf]
  | packed _ _ ih => exact ih
  | unpacked _ _ ih => exact ih
  | @passed ds u C r m hu _ _ _ _ ih =>
    rw [framesOf_append, ← List.append_assoc, ← ih, ← hu.cfg]
    simp [heard, framesOf]

/-- An operation other than SET_BPI has at most one transaction (R82). -/
theorem exchanges_eq_single {C : Bytes} (hb : ¬ countsSteps i) (hC : ds ++ [C] <+: exchanges s i) :
    ds = [] ∧ [C] = exchanges s i := by
  have hlen := hC.length_le
  rw [List.length_append, List.length_singleton] at hlen
  rcases exchanges_cases s i with h | ⟨-, h⟩ | ⟨m1, m2, m3, rfl, -⟩
  · rw [h, List.length_nil] at hlen
    omega
  · obtain rfl := List.length_eq_zero_iff.mp (show ds.length = 0 by omega)
    exact ⟨rfl, hC.eq_of_length (by simp [h])⟩
  · exact absurd ⟨m1, m2, m3, rfl⟩ hb

/-- An operation whose transaction is running writes its commands as exchanges. -/
theorem commandsOf_eq_exchanges {C : Bytes} (hC : ds ++ [C] <+: exchanges s i) : commandsOf s i = exchanges s i := by
  cases i with
  | send | reset | cmdReset => simp [exchanges] at hC
  | _ => rfl

/-- `MSTEP` is wide enough for the three tracks (R25, R178). -/
theorem Runs.mstep_toNat (hu : Runs i s ds u) (hb : countsSteps i) : u.mstep.toNat = ds.length := by
  obtain ⟨m1, m2, m3, rfl⟩ := hb
  have hlen : ds.length ≤ 3 := by
    refine Nat.le_trans hu.exchanged.length_le ?_
    rcases m1 with _ | b1 <;> rcases m2 with _ | b2 <;> rcases m3 with _ | b3 <;>
      simp [exchanges, commandsOf, transaction, ownCommands]
  rw [hu.mstep, show mstepAfter (.setBpi m1 m2 m3) s ds.length = BitVec.ofNat 2 ds.length from rfl, BitVec.toNat_ofNat]
  omega

/-- The frames a request has written when it ends: the first ones of the operation's own commands, and how many (R141, R175,
R178, R180). -/
structure Written (i : Instr) (s t : State) (Cs : List Bytes) : Prop where
  own : Cs <+: commandsOf s i
  txs : t.txs = s.txs ++ framesOf s.cfg Cs
  all : taken i s → i ≠ .writeRaw → ¬ countsSteps i → Cs = commandsOf s i
  raw : taken i s → i = .writeRaw → Cs = if t.err.kind = .encodingPrecondition then [] else commandsOf s i
  steps : taken i s → countsSteps i → Cs.length = t.mstep.toNat + (if t.err.kind = .none then 0 else 1)

/-- A transaction that fails has written its frame, the last one. -/
theorem Runs.written_of_failure (hu : Runs i s ds u) {C : Bytes} (hC : ds ++ [C] <+: exchanges s i)
    (htxs : t.txs = u.txs ++ u.cfg.esc :: C) (hm : t.mstep = u.mstep) (hn : t.err.kind ≠ .none)
    (hp : t.err.kind ≠ .encodingPrecondition) : Written i s t (ds ++ [C]) := by
  have hcmd := commandsOf_eq_exchanges hC
  constructor
  case own => rwa [hcmd]
  case txs =>
    rw [htxs, hu.txs, hu.cfg, framesOf_append]
    simp [framesOf]
  case all =>
    intro _ _ hb
    obtain ⟨rfl, he⟩ := exchanges_eq_single hb hC
    rw [hcmd, ← he, List.nil_append]
  case raw =>
    rintro - rfl
    obtain ⟨rfl, he⟩ := exchanges_eq_single (by simp [countsSteps]) hC
    rw [if_neg hp, hcmd, ← he, List.nil_append]
  case steps =>
    intro _ hb
    rw [if_neg hn, hm, hu.mstep_toNat hb, List.length_append, List.length_singleton]

theorem Ends.written (h : Ends i s t) : ∃ Cs, Written i s t Cs := by
  cases h with
  | refused hn =>
    exact ⟨[], List.nil_prefix, by simp [framesOf], fun ht => absurd ht hn, fun ht => absurd ht hn,
      fun ht => absurd ht hn⟩
  | @completed u _ _ _ hu =>
    have hkind : u.err.kind = .none := by rw [hu.cleared.2.1]
    refine ⟨commandsOf s i, List.prefix_rfl, hu.txs, fun _ _ _ => rfl, fun _ _ => ?_, fun _ hb => ?_⟩
    · rw [if_neg (by rw [complete_err]; simp [hkind])]
    · rw [if_pos (by rw [complete_err]; exact hkind)]
      exact (hu.mstep_toNat hb).symm
  | parsed _ hi =>
    subst hi
    exact ⟨[], List.nil_prefix, by simp [framesOf], fun _ _ _ => rfl, fun _ => nofun, fun _ => nofun⟩
  | @sent C _ hi hC =>
    refine ⟨[C], hC ▸ List.prefix_rfl, ?_, fun _ _ _ => hC.symm, ?_, ?_⟩
    · rw [sendFrame_eq]
      simp [framesOf]
    · rintro - rfl
      exact absurd hi (by simp [sendsOnly])
    · rintro - ⟨m1, m2, m3, rfl⟩
      exact absurd hi (by simp [sendsOnly])
  | codecFailed hu hw hb =>
    exact ⟨commandsOf s i, List.prefix_rfl, hu.txs, fun _ _ _ => rfl, fun _ hi => absurd hi hw,
      fun _ hi => absurd hi hb⟩
  | encodingFailed hu hw =>
    exact ⟨[], List.nil_prefix, hu.txs, fun _ hn => absurd hw hn, fun _ _ => rfl, fun _ => by subst hw; nofun⟩
  | timedOut hu hC => exact ⟨_, hu.written_of_failure hC rfl rfl nofun nofun⟩
  | unparsable hu hC => exact ⟨_, hu.written_of_failure hC rfl rfl nofun nofun⟩
  | turnedDown hu hC => exact ⟨_, hu.written_of_failure hC rfl rfl nofun nofun⟩

/-- Settles O45, from the frames written at every end of an operation. -/
theorem transmitStreamGrowsByFrames : Obligations.TransmitStreamGrowsByFrames := by
  intro i s t h
  obtain ⟨Cs, hown, htxs, hall, hraw, hsteps⟩ := (ends_of_exec h).written
  refine ⟨Cs, hown, htxs, fun hp => ?_, fun ht hw hb => ?_, hraw, fun ht m1 m2 m3 he => hsteps ht ⟨m1, m2, m3, he⟩⟩
  · exact List.prefix_nil.mp (commandsOf_of_isPure hp s ▸ hown)
  · exact hall ht hw fun ⟨m1, m2, m3, he⟩ => hb m1 m2 m3 he

/-! ### The response registers -/

/-- What a transaction receives depends on the device's plan and on `DRAIN_MAX` alone. -/
theorem early_congr {v : State} (h : u.dev = v.dev) : early u = early v := by
  simp only [early, arrival, h]

theorem accumulated_congr {v : State} (h : u.dev = v.dev) (hc : u.cfg = v.cfg) : accumulated u = accumulated v := by
  simp only [accumulated, received, early, arrival, h, hc]

/-- Every transaction that passed has taken seven entries of the device's plan (R145). -/
theorem Runs.dev (hu : Runs i s ds u) : u.dev = (afterTransactions ds.length s).dev := by
  induction hu with
  | accepted => rfl
  | packed _ _ ih => exact ih
  | unpacked _ _ ih => exact ih
  | @passed ds u C r m _ _ _ _ _ ih =>
    show u.dev.drop 7 = s.dev.drop (7 * (ds ++ [C]).length)
    rw [ih, afterTransactions, List.drop_drop, List.length_append, List.length_singleton, Nat.mul_succ]

theorem Runs.early_eq (hu : Runs i s ds u) : early u = early (afterTransactions ds.length s) := early_congr hu.dev

theorem Runs.accumulated_eq (hu : Runs i s ds u) : accumulated u = accumulated (afterTransactions ds.length s) :=
  accumulated_congr hu.dev hu.cfg

/-- `r` is the response to the transaction after the first `k` of an operation started in `s`. -/
def Answers (s : State) (k : Nat) (r : Response) : Prop :=
  early (afterTransactions k s) ≠ [] ∧ isResponse s.cfg (accumulated (afterTransactions k s)) r

/-- The first transaction of an operation. -/
theorem answers_zero {r : Response} : Answers s 0 r ↔ early s ≠ [] ∧ isResponse s.cfg (accumulated s) r := Iff.rfl

/-- A transaction has one response at most. -/
theorem Answers.unique {k : Nat} {r r' : Response} (h : Answers s k r) (h' : Answers s k r') : r = r' := by
  have hr := (parseResponse_iff_isResponse ..).mpr h.2
  rw [(parseResponse_iff_isResponse ..).mpr h'.2] at hr
  exact (Option.some.inj hr).symm

/-- The response to the transaction that a running operation makes next. -/
theorem Runs.answers {r : Response} (hu : Runs i s ds u) (he : early u ≠ []) (hr : isResponse u.cfg (accumulated u) r) :
    Answers s ds.length r := by
  rw [hu.early_eq] at he
  rw [hu.accumulated_eq, hu.cfg] at hr
  exact ⟨he, hr⟩

/-- The response registers hold the response to the last transaction that passed, if there was one (R22, R151). -/
theorem Runs.rsp (hu : Runs i s ds u) :
    (ds = [] ∧ u.rsp = s.rsp) ∨ ∃ k, ds.length = k + 1 ∧ Answers s k u.rsp := by
  induction hu with
  | accepted => exact .inl ⟨rfl, rfl⟩
  | packed _ _ ih => exact ih
  | unpacked _ _ ih => exact ih
  | passed hu _ he hr _ _ => exact .inr ⟨_, by simp, hu.answers he hr⟩

/-- The response registers of `t` hold the response of a transaction of `i`: of its one, or of the last one of SET_BPI that
received one, which `MSTEP` counts (R178). -/
def RspOfTransaction (i : Instr) (s t : State) : Prop :=
  (((transaction s i).isSome = true ∨ i = .writeRaw) ∧ early s ≠ [] ∧ isResponse s.cfg (accumulated s) t.rsp) ∨
  (∃ m1 m2 m3 k, i = .setBpi m1 m2 m3 ∧ k < ([m1, m2, m3].filterMap id).length ∧
    t.mstep.toNat = k + (if t.err.kind = .deviceStatusError then 0 else 1) ∧
    early (afterTransactions k s) ≠ [] ∧ isResponse s.cfg (accumulated (afterTransactions k s)) t.rsp)

theorem rspOfTransaction_of_answers {k : Nat} (hk : k < (exchanges s i).length) (ha : Answers s k t.rsp)
    (hm : countsSteps i → t.mstep.toNat = k + (if t.err.kind = .deviceStatusError then 0 else 1)) :
    RspOfTransaction i s t := by
  rcases exchanges_cases s i with h | ⟨hi, h⟩ | ⟨m1, m2, m3, rfl, h⟩
  · rw [h] at hk
    exact absurd hk (Nat.not_lt_zero k)
  · obtain rfl : k = 0 := by omega
    exact .inl ⟨hi, answers_zero.mp ha⟩
  · exact .inr ⟨m1, m2, m3, k, rfl, h ▸ hk, hm ⟨m1, m2, m3, rfl⟩, ha⟩

/-- An operation that ends with the response registers of its last transaction that passed. -/
theorem Runs.rsp_at_end (hu : Runs i s ds u) (hr : t.rsp = u.rsp) (hm : t.mstep = u.mstep)
    (hn : t.err.kind ≠ .deviceStatusError) : t.rsp = s.rsp ∨ RspOfTransaction i s t := by
  rcases hu.rsp with ⟨-, h⟩ | ⟨k, hk, h⟩
  · exact .inl (hr.trans h)
  · have hle := hu.exchanged.length_le
    refine .inr (rspOfTransaction_of_answers (k := k) (by omega) (hr ▸ h) fun hb => ?_)
    rw [if_neg hn, hm, hu.mstep_toNat hb, hk]

/-- Whatever is in the response registers at the end was there before or has been parsed by the operation (R22). -/
theorem Ends.rsp (h : Ends i s t) :
    t.rsp = s.rsp ∨ (i = .parse ∧ isResponse s.cfg s.in0.bytes t.rsp) ∨ RspOfTransaction i s t := by
  have assemble : t.rsp = s.rsp ∨ RspOfTransaction i s t →
      t.rsp = s.rsp ∨ (i = .parse ∧ isResponse s.cfg s.in0.bytes t.rsp) ∨ RspOfTransaction i s t :=
    fun h => h.imp_right .inr
  cases h with
  | refused => exact .inl rfl
  | completed hu => exact assemble (hu.rsp_at_end rfl rfl (by rw [complete_err]; simp [hu.cleared.2.1]))
  | parsed _ hi hr => exact .inr (.inl ⟨hi, hr⟩)
  | sent => rw [sendFrame_eq]; exact .inl rfl
  | codecFailed hu _ _ he => exact assemble (hu.rsp_at_end rfl rfl (by cases he <;> nofun))
  | encodingFailed hu => exact assemble (hu.rsp_at_end rfl rfl nofun)
  | timedOut hu => exact assemble (hu.rsp_at_end rfl rfl nofun)
  | unparsable hu => exact assemble (hu.rsp_at_end rfl rfl nofun)
  | @turnedDown ds u C r arg hu hC he hr =>
    have hlt : ds.length < (exchanges s i).length := by
      have := hC.length_le
      rw [List.length_append, List.length_singleton] at this
      omega
    exact .inr (.inr (rspOfTransaction_of_answers hlt (hu.answers he hr) fun hb => hu.mstep_toNat hb))

/-- An operation that is one transaction, or WRITE_RAW, can always be taken up and has that one command. -/
theorem oneTransaction_facts (h : (transaction s i).isSome = true ∨ i = .writeRaw) :
    (∃ C, exchanges s i = [C] ∧ commandsOf s i = [C]) ∧ resultFits s i ∧ ¬ sendsOnly i ∧ i ≠ .parse := by
  cases i with
  | pack | unpack | isoenc | isodec | rawenc | rawdec | send | parse | reset | cmdReset | setBpi =>
    exact absurd h (by simp [transaction])
  | _ => exact ⟨⟨_, rfl, rfl⟩, trivial, by simp [sendsOnly], by simp⟩

/-- The response to the one transaction of an operation is written, whether the operation then completes or raises (R22). -/
theorem Ends.rsp_of_answers {r : Response} (h : Ends i s t) (hready : ready s)
    (hi : (transaction s i).isSome = true ∨ (i = .writeRaw ∧ t.err.kind ≠ .encodingPrecondition))
    (ha : Answers s 0 r) : t.rsp = r := by
  obtain ⟨⟨C, hex, hcmd⟩, hfits, hsend, hparse⟩ := oneTransaction_facts (hi.imp_right And.left)
  have ended : ∀ {u}, Runs i s (commandsOf s i) u → t.rsp = u.rsp → t.rsp = r := by
    intro u hu he
    rcases hu.rsp with ⟨hn, -⟩ | ⟨k, hk, h⟩
    · simp [hcmd] at hn
    · obtain rfl : k = 0 := by simpa [hcmd] using hk.symm
      exact he.trans (h.unique ha)
  have first : ∀ {ds : List Bytes} {C' : Bytes}, ds ++ [C'] <+: exchanges s i → ds.length = 0 := by
    intro ds C' hC
    have := hC.length_le
    rw [hex, List.length_append, List.length_singleton, List.length_singleton] at this
    omega
  cases h with
  | refused hn => exact absurd ⟨hready, hfits⟩ hn
  | completed hu => exact ended hu rfl
  | parsed _ hp => exact absurd hp hparse
  | sent _ hs => exact absurd hs hsend
  | codecFailed hu => exact ended hu rfl
  | encodingFailed _ hw =>
    subst hw
    rcases hi with hi | ⟨-, hi⟩
    · simp [transaction] at hi
    · exact absurd rfl hi
  | timedOut hu hC he =>
    rw [hu.early_eq, first hC] at he
    exact absurd he ha.1
  | unparsable hu hC _ hp =>
    rw [hu.accumulated_eq, hu.cfg, first hC, (parseResponse_iff_isResponse ..).mpr ha.2] at hp
    cases hp
  | turnedDown hu hC he hr => exact Answers.unique (first hC ▸ hu.answers he hr) ha

/-- An operation without transactions, PARSE apart, writes no response (R22). -/
theorem Ends.rsp_of_no_exchanges (h : Ends i s t) (hn : exchanges s i = []) (hp : i ≠ .parse) : t.rsp = s.rsp := by
  have kept : ∀ {ds u}, Runs i s ds u → t.rsp = u.rsp → t.rsp = s.rsp := by
    intro ds u hu he
    rcases hu.rsp with ⟨-, h⟩ | ⟨k, hk, -⟩
    · exact he.trans h
    · have := hu.exchanged.length_le
      rw [hn, List.length_nil] at this
      omega
  cases h with
  | refused => rfl
  | completed hu => exact kept hu rfl
  | parsed _ hi => exact absurd hi hp
  | sent => rw [sendFrame_eq]; rfl
  | codecFailed hu => exact kept hu rfl
  | encodingFailed hu => exact kept hu rfl
  | timedOut hu => exact kept hu rfl
  | unparsable hu => exact kept hu rfl
  | turnedDown _ hC => simp [hn] at hC

/-- PARSE of a response (R157). -/
theorem exec_parse_of_isResponse {r : Response} (hready : ready s) (hr : isResponse s.cfg s.in0.bytes r) :
    exec .parse s = .next (complete { accept 0x09 s with rsp := r }) := by
  have hp := (parseResponse_iff_isResponse ..).mpr hr
  show execParse s = _
  rw [execParse, start_of_accepted _ hready.1 hready.2 rfl]
  simp only [accept_cfg, accept_in0, hp]

/-- Settles O44, from the response registers at every end of an operation. -/
theorem responseRegistersHoldAParse : Obligations.ResponseRegistersHoldAParse := by
  intro i s t h
  have hends := ends_of_exec h
  refine ⟨hends.rsp, ?_, fun r hready hi he hr => hends.rsp_of_answers hready hi ⟨he, hr⟩, fun hi => ?_⟩
  · rintro r hready rfl hr
    rw [exec_parse_of_isResponse hready hr] at h
    cases h
    rfl
  · rcases hi with ⟨hpure, hp⟩ | hs
    · exact hends.rsp_of_no_exchanges
        (List.prefix_nil.mp (commandsOf_of_isPure hpure s ▸ exchanges_prefix s i)) hp
    · exact hends.rsp_of_no_exchanges (exchanges_of_sendsOnly hs s) (by rcases hs with rfl | rfl | rfl <;> simp)

end Sys2Proof.StateProofs

/-! PROOFS, part 6. The invariant of the block (Sys2Proof/Safety.lean) at reset and along every step, and the steps in which
no operation runs. -/

namespace Sys2Proof.StateProofs
open Sys2Proof.Machine Sys2Proof.Spec Sys2Proof.Laws

variable {i : Instr} {s t u : State} {ds : List Bytes}

/-! ### The environment -/

/-- A request (R79, R80, R205). -/
theorem step_request {r : Request} {rest : List HostAct} (h : s.host = .request r :: rest) :
    step s = takeRequest r { s with host := rest } := by
  rw [step, h]

/-- The reset event (R33, R216). -/
theorem step_reset {rx : Bytes} {rest : List HostAct} (h : s.host = .reset rx :: rest) :
    step s = .next (resetBlock rx { s with host := rest }) := by
  rw [step, h]

/-- A teardown (R218). -/
theorem step_teardown {rest : List HostAct} (h : s.host = .teardown :: rest) :
    step s = .next (teardown { s with host := rest }) := by
  rw [step, h]

/-- An operand is loaded (R20). -/
theorem step_load {k : Fin 3} {b : Bytes} {p : Bool} {rest : List HostAct} (h : s.host = .load k b p :: rest) :
    step s = .next (loadOperand k b p { s with host := rest }) := by
  rw [step, h]

/-- Time passes (R161). -/
theorem step_idle {rest : List HostAct} (h : s.host = .idle :: rest) :
    step s = .next (idleStep { s with host := rest }) := by
  rw [step, h]

/-- The host does nothing more (R161). -/
theorem step_no_act (h : s.host = []) : step s = .next (idleStep s) := by
  rw [step, h]

/-- Settles O4. -/
theorem stepRunsDecodedOperation : Obligations.StepRunsDecodedOperation := by
  intro s r rest h
  rw [step_request h, takeRequest]
  exact ⟨fun i hi => by simp only [hi], fun e he => by simp only [he]⟩

/-- A request that is not taken up has no effect (R205). -/
theorem exec_of_not_taken (h : ¬ taken i s) : exec i s = .next s := by
  have not_runs : ∀ {ds u}, ¬ Runs i s ds u := fun hu => h hu.taken
  obtain ⟨t, he, hends⟩ := exec_endsIn s i
  cases hends with
  | refused => exact he
  | parsed ht => exact absurd ht h
  | sent ht => exact absurd ht h
  | completed hu => exact absurd hu not_runs
  | codecFailed hu => exact absurd hu not_runs
  | encodingFailed hu => exact absurd hu not_runs
  | timedOut hu => exact absurd hu not_runs
  | unparsable hu => exact absurd hu not_runs
  | turnedDown hu => exact absurd hu not_runs

/-- Settles O53: the two events by their definitions; a closed block takes no request. -/
theorem resetAndTeardown : Obligations.ResetAndTeardown := by
  intro s rest
  constructor
  · intro rx h
    exact ⟨0, step_reset h⟩
  · intro h
    exact ⟨_, step_teardown h, rfl, rfl, fun i => exec_of_not_taken fun ht => Bool.false_ne_true ht.1.1⟩

/-- With the link open an idle step takes one entry of the device's plan (R23, R161). -/
theorem idleStep_of_open (h : s.linkOpen = true) :
    idleStep s = { s with rxf := s.rxf ++ arrival s 0, dev := s.dev.drop 1 } := by
  rw [idleStep, if_pos h, arrive_eq_arrival]

/-- An operand that does not fit is not presented (R205). -/
theorem loadOperand_of_not_fits {k : Fin 3} {b : Bytes} {p : Bool} (h : s.cfg.bufMax < b.length) :
    loadOperand k b p s = s := by
  rcases loadOperand_cases k b p s with he | ⟨hle, -⟩
  · exact he
  · omega

/-- Settles O54: the idle step by its arrival, the load by whether the operand fits. -/
theorem environmentBetweenOperations : Obligations.EnvironmentBetweenOperations := by
  intro s rest hopen
  refine ⟨fun h => ?_, fun h => ?_, fun k b p h => ⟨fun hlong => ?_, fun hfit => ?_⟩⟩
  · rw [step_idle h]
    exact congrArg _ (idleStep_of_open (s := { s with host := rest }) hopen)
  · rw [step_no_act h, idleStep_of_open hopen]
  · rw [step_load h]
    exact congrArg _ (loadOperand_of_not_fits (s := { s with host := rest }) hlong)
  · have hfits : s.cfg.fits b.length = true := (fits_iff ..).mpr hfit
    rw [step_load h]
    refine ⟨?_, ?_, ?_⟩ <;> (rintro rfl; simp [loadOperand, hopen, hfits])

/-! ### The invariant at reset -/

/-- The invariant says nothing about the link's streams and ownership or the model's own fields. -/
theorem inv_of_same_registers (h : Inv s) (rxf : Bytes) (open_ : Bool) (host : List HostAct) (dev : List Bytes)
    (draws : Nat) : Inv { s with rxf := rxf, linkOpen := open_, host := host, dev := dev, draws := draws } :=
  { h with }

/-- The reset state has the invariant, whatever `RXF` holds (R33). -/
theorem inv_resetWith {c : Config} (hc : c.wf = true) (rx : Bytes) : Inv (State.resetWith c rx) := by
  have clear : OutBuf.wf c {} := ⟨Nat.zero_le _, fun _ => rfl, .inl rfl, Nat.zero_le _⟩
  exact
    { cfg_wf := hc, not_busy := rfl, idle := rfl, opsel_code := .inl rfl, acc_lt := Nat.one_pos
      pos_fit := Nat.two_pow_pos _, lastnz_fit := nofun, in0_fit := Nat.zero_le _, in1_fit := Nat.zero_le _
      in2_fit := Nat.zero_le _, out0_wf := clear, out1_wf := clear, out2_wf := clear, rxbuf_fit := Nat.zero_le _
      rsp_fit := Nat.zero_le _, err_wf := rfl, raw_fit := Nat.zero_le _, err_op := fun h => absurd rfl h
      err_clean := fun h => absurd rfl h }

/-- Settles O51. -/
theorem invariantAtReset : Obligations.InvariantAtReset :=
  ⟨inv_resetWith default_wf [], fun _ rx hc => inv_resetWith hc rx⟩

/-! ### The invariant while an operation runs -/

/-- What the invariant says of the registers that an operation neither clears when it starts nor settles when it ends. -/
structure InvWithin (s : State) : Prop where
  cfg_wf : s.cfg.wf = true
  opsel_code : s.opsel = 0 ∨ (decodeOp s.opsel {}).isOk = true
  acc_lt : s.acc.toNat < 2 ^ s.cnt.toNat
  pos_fit : s.pos < 2 ^ s.cfg.posw
  lastnz_fit : ∀ j, s.lastnz = some j → j < 2 ^ s.cfg.posw - 1
  in0_fit : s.in0.bytes.length ≤ s.cfg.bufMax
  in1_fit : s.in1.bytes.length ≤ s.cfg.bufMax
  in2_fit : s.in2.bytes.length ≤ s.cfg.bufMax
  rxbuf_fit : s.rxbuf.length ≤ 1 + s.cfg.drainMax
  rsp_fit : s.rsp.imm.length + s.rsp.data.length ≤ s.cfg.bufMax

theorem InvWithin.sized (h : InvWithin s) : Sized s := ⟨h.cfg_wf, h.in0_fit, h.rsp_fit⟩

/-- The select code of an operation is one the decoder knows (R79, R80). -/
theorem selectCode_decodes (i : Instr) : (decodeOp (selectCode i) {}).isOk = true := by
  cases i <;> rfl

theorem invWithin_accept (h : Inv s) (i : Instr) (m : BitVec 2) :
    InvWithin { accept (selectCode i) s with mstep := m } :=
  { h with opsel_code := .inr (selectCode_decodes i) }

/-- A PACK leaves `ACC` within `CNT` (R16). -/
theorem InvWithin.discardPack (h : InvWithin s) : InvWithin (discardPackRegs s) :=
  { h with acc_lt := discardPackRegs_acc_lt s }

/-- An UNPACK leaves the five working registers within their widths (R16, R18). -/
theorem InvWithin.discardUnpack (h : InvWithin s) : InvWithin (discardUnpackRegs s) :=
  { h with
    acc_lt := (discardUnpackRegs_bounds s).1, pos_fit := (discardUnpackRegs_bounds s).2.1
    lastnz_fit := (discardUnpackRegs_bounds s).2.2 }

/-- A transaction in which nothing arrived leaves `RXBUF` empty (R149). -/
theorem InvWithin.silent (h : InvWithin s) (C : Bytes) : InvWithin (silent C s) :=
  { h with rxbuf_fit := Nat.zero_le _ }

/-- A transaction accumulates at most `1 + DRAIN_MAX` bytes (R21, R150). -/
theorem InvWithin.heard (h : InvWithin s) (C : Bytes) : InvWithin (heard C s) :=
  { h with rxbuf_fit := accumulated_length_le s }

/-- A response cut from a buffer that fits a buffer fits it too (R22, R157). -/
theorem InvWithin.answered (h : InvWithin s) {B : Bytes} {r : Response} (hr : isResponse s.cfg B r)
    (hB : B.length ≤ s.cfg.bufMax) (tstate : TState) (m : BitVec 2) :
    InvWithin { s with rsp := r, tstate := tstate, mstep := m } := by
  have hlen := length_of_isResponse hr
  exact { h with rsp_fit := by show r.imm.length + r.data.length ≤ s.cfg.bufMax; omega }

/-- What a transaction accumulates fits a buffer (R150, R219). -/
theorem accumulated_fits (s : State) : (accumulated s).length ≤ s.cfg.bufMax :=
  Nat.le_trans (accumulated_length_le s) (drainMax_lt_bufMax s.cfg)

theorem Runs.invWithin (hu : Runs i s ds u) (h : Inv s) : InvWithin u := by
  induction hu with
  | accepted => exact invWithin_accept h i _
  | packed _ _ ih => exact ih.discardPack
  | unpacked _ _ ih => exact ih.discardUnpack
  | @passed _ u C _ _ _ _ _ hr _ ih => exact (ih.heard C).answered hr (accumulated_fits u) _ _

/-! ### The invariant when an operation ends -/

theorem inv_complete (h : InvWithin u) (he : u.err = {}) (h0 : u.out0.wf u.cfg) (h1 : u.out1.wf u.cfg)
    (h2 : u.out2.wf u.cfg) : Inv (complete u) :=
  { h with
    not_busy := rfl, idle := rfl, out0_wf := h0, out1_wf := h1, out2_wf := h2
    err_wf := by rw [complete_err, he]; rfl
    raw_fit := by rw [complete_err, he]; exact Nat.zero_le _
    err_op := fun hn => absurd (by rw [complete_err, he]) hn
    err_clean := fun hn => absurd (by rw [complete_err, he]) hn }

/-- An error whose record is well-formed and whose bytes fit a buffer (R191 to R195). -/
structure GoodError (c : Config) (e : Err) : Prop where
  status : ∀ st arg, e = .deviceStatus st arg → st ≠ c.stOK
  strip : ∀ k, e = .precondition k → k.toNat ≤ 3
  raw_fit : ∀ offset raw, e = .framing offset raw → raw.length ≤ c.bufMax

theorem inv_raise {e : Err} (h : InvWithin u) (he : GoodError u.cfg e) : Inv (raise e u) := by
  have clear : OutBuf.wf u.cfg {} := ⟨Nat.zero_le _, fun _ => rfl, .inl rfl, Nat.zero_le _⟩
  have hraw : (errRegs u.opsel e).raw.length ≤ u.cfg.bufMax := by
    cases e with
    | framing offset raw => exact he.raw_fit offset raw rfl
    | timeout | deviceStatus | precondition => exact Nat.zero_le _
  exact { h with
    not_busy := rfl, idle := rfl, out0_wf := clear, out1_wf := clear, out2_wf := clear
    err_wf := errRegs_wf u.cfg u.opsel e he.status he.strip
    raw_fit := hraw
    err_op := fun _ => errRegs_op u.opsel e
    err_clean := fun _ => ⟨rfl, rfl, rfl⟩ }

theorem goodError_of_codecError {e : Err} (h : InvWithin u) (he : CodecError u e) : GoodError u.cfg e := by
  cases he with
  | precondition hk => exact ⟨nofun, fun k h => by cases h; exact hk, nofun⟩
  | operand => exact ⟨nofun, nofun, fun _ _ he => by cases he; exact h.in0_fit⟩
  | response => exact ⟨nofun, nofun, fun _ _ he => by cases he; exact Nat.le_trans (Nat.le_add_left ..) h.rsp_fit⟩

/-- Every operation keeps the invariant. -/
theorem Ends.inv (h : Ends i s t) (hs : Inv s) : Inv t := by
  cases h with
  | refused => exact hs
  | completed hu h0 h1 h2 =>
    have hw := hu.invWithin hs
    exact inv_complete { hw with } hu.cleared.2.1 (h0.wf hw.sized) (h1.wf hw.sized) (h2.wf hw.sized)
  | parsed _ _ hr =>
    have clear := (goodResult_clear i s).wf ⟨hs.cfg_wf, hs.in0_fit, hs.rsp_fit⟩
    exact inv_complete ((invWithin_accept hs i s.mstep).answered hr hs.in0_fit s.tstate s.mstep) rfl clear clear clear
  | sent =>
    have clear := (goodResult_clear i s).wf ⟨hs.cfg_wf, hs.in0_fit, hs.rsp_fit⟩
    rw [sendFrame_eq]
    exact inv_complete { invWithin_accept hs i s.mstep with } rfl clear clear clear
  | codecFailed hu _ _ he => exact inv_raise (hu.invWithin hs) (goodError_of_codecError (hu.invWithin hs) he)
  | encodingFailed hu _ hk =>
    exact inv_raise (hu.invWithin hs) (goodError_of_codecError (hu.invWithin hs) (.precondition hk))
  | timedOut hu => exact inv_raise ((hu.invWithin hs).silent _) ⟨nofun, nofun, nofun⟩
  | @unparsable _ u C hu =>
    exact inv_raise ((hu.invWithin hs).heard C)
      ⟨nofun, nofun, fun _ _ he => by cases he; exact accumulated_fits u⟩
  | @turnedDown _ u C _ _ hu _ _ hr hst =>
    exact inv_raise (((hu.invWithin hs).heard C).answered hr (accumulated_fits u) _ u.mstep)
      ⟨fun _ _ he => by cases he; exact hst, nofun, nofun⟩

/-! ### The invariant along every step -/

/-- Filling an operand buffer keeps the invariant (R20, R205). -/
theorem inv_loadOperand (h : Inv s) (k : Fin 3) (b : Bytes) (p : Bool) : Inv (loadOperand k b p s) := by
  rcases loadOperand_cases k b p s with he | ⟨hfit, he | he | he⟩ <;> rw [he]
  · exact h
  · exact { h with in0_fit := hfit }
  · exact { h with in1_fit := hfit }
  · exact { h with in2_fit := hfit }

theorem inv_idleStep (h : Inv s) : Inv (idleStep s) := by
  rcases idleStep_cases s with he | he
  · rw [he, arrive_eq]
    exact { h with }
  · rw [he]
    exact { h with }

/-- Settles O50: a step is an act of the host, and each keeps the invariant; a request by the ways it can end. -/
theorem stepKeepsInvariant : Obligations.StepKeepsInvariant := by
  intro s t hs h
  have hrest : ∀ rest, Inv { s with host := rest } := fun rest => { hs with }
  cases hhost : s.host with
  | nil =>
    rw [step_no_act hhost] at h
    cases h
    exact inv_idleStep hs
  | cons a rest =>
    cases a with
    | load k b p =>
      rw [step_load hhost] at h
      cases h
      exact inv_loadOperand (hrest rest) k b p
    | request r =>
      rw [step_request hhost, takeRequest] at h
      split at h
      · exact (ends_of_exec h).inv (hrest rest)
      · cases h
        exact hrest rest
    | idle =>
      rw [step_idle hhost] at h
      cases h
      exact inv_idleStep (hrest rest)
    | reset rx =>
      rw [step_reset hhost] at h
      cases h
      exact inv_of_same_registers (inv_resetWith hs.cfg_wf rx) rx true rest s.dev s.draws
    | teardown =>
      rw [step_teardown hhost] at h
      cases h
      exact inv_of_same_registers (inv_resetWith hs.cfg_wf []) [] false rest s.dev s.draws

end Sys2Proof.StateProofs

/-! PROOFS, part 7. UNPACK as a reading of the bit stream of R44: its registers hold what the units read so far give and the
bits that wait for a whole unit. -/

namespace Sys2Proof.PackerProofs
open Sys2Proof.Machine Sys2Proof.Spec Sys2Proof.Laws Sys2Proof.StateProofs

/-! ### Bits of a stream's number -/

/-- The bits of a stream's number are the stream. -/
theorem lsbFirst_testBit (l : List Bool) (i : Nat) : (lsbFirst l).testBit i = l.getD i false := by
  induction l generalizing i with
  | nil => simp [lsbFirst]
  | cons b l ih =>
    have hbit : lsbFirst (b :: l) = Nat.bit b (lsbFirst l) := by
      rw [lsbFirst, Nat.bit_val, Nat.add_comm]
    cases i with
    | zero => simp [hbit]
    | succ i => rw [hbit, Nat.testBit_bit_succ, ih, List.getD_cons_succ]

/-- A stream read highest bit first: what came first is the high part of the number, what came last the low part (R44). -/
theorem lsbFirst_reverse_append (l m : List Bool) :
    lsbFirst (l ++ m).reverse / 2 ^ m.length = lsbFirst l.reverse ∧
    lsbFirst (l ++ m).reverse % 2 ^ m.length = lsbFirst m.reverse := by
  have hlow := lsbFirst_lt m.reverse
  rw [List.length_reverse] at hlow
  rw [List.reverse_append, lsbFirst_append, List.length_reverse]
  constructor
  · rw [Nat.add_mul_div_left _ _ (Nat.two_pow_pos _), Nat.div_eq_of_lt hlow, Nat.zero_add]
  · rw [Nat.add_mul_mod_self_left, Nat.mod_eq_of_lt hlow]

/-- The low `k` bits of an accumulator (R98). -/
theorem and_mask_toNat (x : BitVec 14) {k : Nat} (hk : k ≤ 14) :
    (x &&& BitVec.ofNat 14 (2 ^ k - 1)).toNat = x.toNat % 2 ^ k := by
  have hpow := Nat.pow_le_pow_right (n := 2) (by omega) hk
  rw [BitVec.toNat_and, BitVec.toNat_ofNat, Nat.mod_eq_of_lt (by omega), Nat.and_two_pow_sub_one_eq_mod]

/-! ### The units of a stream -/

theorem units_of_short {w : Nat} {l : List Bool} (h : l.length < w + 1) : units w l = [] := by
  simp [units, Nat.div_eq_of_lt h]

/-- The first unit of a stream, then the units of the rest. -/
theorem units_append {w : Nat} {u : List Bool} (hu : u.length = w + 1) (l : List Bool) :
    units w (u ++ l) = u :: units w l := by
  have hcount : (u ++ l).length / (w + 1) = l.length / (w + 1) + 1 := by
    rw [List.length_append, hu, Nat.add_comm, Nat.add_div_right _ (Nat.succ_pos w)]
  rw [units, hcount, List.range_succ_eq_map, List.map_cons, List.map_map, units]
  congr 1
  · rw [Nat.zero_mul, List.drop_zero, ← hu, List.take_left]
  · refine List.map_congr_left fun i _ => ?_
    rw [Function.comp_apply, Nat.succ_mul, Nat.add_comm (i * (w + 1)), ← List.drop_drop, ← hu, List.drop_left]

/-- A stream of whole units and less than one more. -/
theorem units_flatten_append {w : Nat} {us : List (List Bool)} (hus : ∀ u ∈ us, u.length = w + 1) {rest : List Bool}
    (h : rest.length < w + 1) : units w (us.flatten ++ rest) = us := by
  induction us with
  | nil => exact units_of_short h
  | cons u us ih =>
    rw [List.flatten_cons, List.append_assoc, units_append (hus u List.mem_cons_self),
      ih fun v hv => hus v (List.mem_cons_of_mem u hv)]

/-! ### A received unit -/

/-- The width-`w` reversal bit by bit (R90). -/
theorem revW_getLsbD {w : Nat} (hw : w ≤ 6) (f : Code) (i : Nat) :
    (revW w f).getLsbD i = (decide (i < w) && f.getLsbD (w - 1 - i)) := by
  rw [revW, BitVec.getLsbD_ushiftRight]
  by_cases hi : i < w
  · rw [rev_getLsbD f ⟨6 - w + i, by omega⟩, show 5 - (6 - w + i) = w - 1 - i by omega]
    simp [hi]
  · rw [BitVec.getLsbD_of_ge _ _ (by omega)]
    simp [hi]

/-- The code of a unit read highest bit first is its reversed field (R44, R90, R99). -/
theorem revW_eq_ofNat_lsbFirst {w : Nat} (hw : w ≤ 6) {f : Code} {code : List Bool} (hlen : code.length = w)
    (hf : f.toNat = lsbFirst code.reverse) : revW w f = BitVec.ofNat 6 (lsbFirst code) := by
  refine BitVec.eq_of_getLsbD_eq fun i hi => ?_
  rw [revW_getLsbD hw, BitVec.getLsbD_ofNat, lsbFirst_testBit, BitVec.getLsbD, hf, lsbFirst_testBit]
  by_cases h : i < w
  · have hrev : w - 1 - (w - 1 - i) = i := by omega
    simp [h, hi, hlen, hrev, List.getD_eq_getElem?_getD, List.getElem?_reverse (show w - 1 - i < code.length by omega)]
  · simp [h, hlen, List.getD_eq_getElem?_getD]

/-- The number of 1 bits of a code is that of its bits. -/
theorem popcount_ofNat_lsbFirst {code : List Bool} (hlen : code.length ≤ 6) :
    popcount (BitVec.ofNat 6 (lsbFirst code)) = code.count true := by
  have hbits : (List.range 6).map (BitVec.ofNat 6 (lsbFirst code)).getLsbD =
      code ++ List.replicate (6 - code.length) false := by
    refine List.ext_getElem (by simp; omega) fun i hi _ => ?_
    have h6 : i < 6 := by simpa using hi
    rw [List.getElem_map, List.getElem_range, BitVec.getLsbD_ofNat, lsbFirst_testBit]
    by_cases h : i < code.length
    · simp [h, h6]
    · simp [h, Nat.le_of_not_lt h, List.getElem_append_right]
  have hcount := congrArg (List.count true) hbits
  rw [List.count_append, List.count_replicate] at hcount
  rw [popcount, ← List.countP_eq_length_filter]
  simpa [List.count, List.countP_map, Function.comp_def] using hcount

/-- The mark of a position is that of its unit: the parity bit disagrees exactly when the number of 1 bits is even (R88,
R101). -/
theorem parityMark_eq_unitMark {code : List Bool} (hlen : code.length ≤ 6) (b : Bool) :
    parityMark (BitVec.ofNat 6 (lsbFirst code)) b = unitMark (code ++ [b]) := by
  rw [parityMark, unitMark, par_eq_popcount_even, popcount_ofNat_lsbFirst hlen, List.count_append]
  rcases Nat.mod_two_eq_zero_or_one (code.count true) with h | h <;> cases b <;> simp [Nat.add_mod, h]

/-! ### The kept codes -/

/-- A zero code at the end is cut, any other is kept with all before it (R100). -/
theorem keptLen_append (cs : List Code) (c : Code) :
    keptLen (cs ++ [c]) = if c = 0 then keptLen cs else cs.length + 1 := by
  rw [keptLen, List.reverse_concat, List.dropWhile_cons]
  by_cases h : c = 0#6 <;> simp [keptLen, h]

theorem lrcOf_append (cs : List Code) (c : Code) : lrcOf (cs ++ [c]) = lrcOf cs ^^^ c := by
  simp [lrcOf]

/-! ### UNPACK's registers and the stream -/

/-- UNPACK's registers after the stream `l` has come in: `us` are the units that have been decoded, `rest` the bits that wait
in `ACC` for a whole unit, first bit highest (R44, R99). -/
structure Decoded (A : Bytes) (w : Nat) (l : List Bool) (us : List (List Bool)) (rest : List Bool) (r : UnpackRegs) :
    Prop where
  stream : l = us.flatten ++ rest
  whole : ∀ u ∈ us, u.length = w + 1
  acc : r.acc.toNat = lsbFirst rest.reverse
  cnt : r.cnt.toNat = rest.length
  lrc : r.lrc = lrcOf (us.map (unitCode w))
  pos : r.pos = us.length
  lastnz : keptLength r.lastnz = keptLen (us.map (unitCode w))
  sym : r.sym = (us.map (unitCode w)).map fun c => A.getD c.toNat 0
  mrk : r.mrk = us.map unitMark

theorem decoded_fresh (A : Bytes) (w : Nat) : Decoded A w [] [] [] {} := by
  constructor <;> simp [lsbFirst, lrcOf, keptLen, keptLength]

/-- With less than a unit pending, the units that have been decoded are those of the stream (R47). -/
theorem Decoded.units_eq {A : Bytes} {w : Nat} {l : List Bool} {us : List (List Bool)} {rest : List Bool}
    {r : UnpackRegs} (h : Decoded A w l us rest r) (hlt : rest.length < w + 1) : units w l = us := by
  rw [h.stream, units_flatten_append h.whole hlt]

/-- A word of a unit's bits, first bit highest: the field above the parity bit gives the code (R44, R62, R99). -/
theorem received_unit {w : Nat} (hw : w ≤ 6) {code : List Bool} {b : Bool} (hlen : code.length = w) {x : BitVec 14}
    (hx : x.toNat = lsbFirst (code ++ [b]).reverse) :
    revW w ((x >>> 1).setWidth 6) = unitCode w (code ++ [b]) ∧ x.getLsbD 0 = b := by
  rw [List.reverse_concat] at hx
  have hlt := lsbFirst_lt code.reverse
  rw [List.length_reverse, hlen] at hlt
  have hpow := Nat.pow_le_pow_right (n := 2) (by omega) hw
  constructor
  · have hfield : ((x >>> 1).setWidth 6).toNat = lsbFirst code.reverse := by
      have := b.toNat_lt
      rw [BitVec.toNat_setWidth, BitVec.toNat_ushiftRight, Nat.shiftRight_eq_div_pow, hx, lsbFirst]
      omega
    rw [revW_eq_ofNat_lsbFirst hw hlen hfield, unitCode, ← hlen, List.take_left]
  · rw [BitVec.getLsbD, hx, lsbFirst_testBit, List.getD_cons_zero]

/-- One unit is taken and decoded (R99): its code and its mark are those of its bits. -/
theorem takeUnit_decoded {A : Bytes} {w : Nat} (hw : w ≤ 6) {l : List Bool} {us : List (List Bool)}
    {code tail : List Bool} {b : Bool} {r : UnpackRegs} (hlen : code.length = w)
    (h : Decoded A w l us (code ++ [b] ++ tail) r) : Decoded A w l (us ++ [code ++ [b]]) tail (takeUnit A w r) := by
  have hcnt : r.cnt.toNat = w + 1 + tail.length := by rw [h.cnt]; simp [hlen]; omega
  have hk : r.cnt.toNat - (w + 1) = tail.length := by omega
  have htail : tail.length < 2 ^ 4 := by omega
  obtain ⟨hhigh, hlow⟩ := lsbFirst_reverse_append (code ++ [b]) tail
  have hunit : (r.acc >>> tail.length).toNat = lsbFirst (code ++ [b]).reverse := by
    rw [BitVec.toNat_ushiftRight, Nat.shiftRight_eq_div_pow, h.acc, hhigh]
  obtain ⟨hcode, hbit⟩ := received_unit hw hlen hunit
  have hmark : parityMark (unitCode w (code ++ [b])) b = unitMark (code ++ [b]) := by
    rw [unitCode, ← hlen, List.take_left]
    exact parityMark_eq_unitMark (hlen ▸ hw) b
  simp only [takeUnit, hk, hcode, hbit, hmark]
  constructor
  case stream => rw [h.stream]; simp
  case whole =>
    intro u hu
    rcases List.mem_append.mp hu with hu | hu
    · exact h.whole u hu
    · rw [List.mem_singleton.mp hu, List.length_append, hlen, List.length_singleton]
  case acc => rw [and_mask_toNat _ (by omega), h.acc, hlow]
  case cnt => rw [BitVec.toNat_ofNat, Nat.mod_eq_of_lt htail]
  case lrc => simp [h.lrc, lrcOf_append]
  case pos => simp [h.pos]
  case lastnz =>
    rw [List.map_append, List.map_singleton, keptLen_append, ← h.lastnz, List.length_map, ← h.pos]
    split <;> rfl
  case sym => simp [h.sym, charOf]
  case mrk => simp [h.mrk]

/-- The extract loop decodes units until less than one is pending (R18, R99). -/
theorem takeUnits_decoded {A : Bytes} {w : Nat} (hw : w ≤ 6) {l : List Bool} (n : Nat) {us : List (List Bool)}
    {rest : List Bool} {r : UnpackRegs} (h : Decoded A w l us rest r) (hn : rest.length ≤ n) :
    ∃ us' rest', Decoded A w l us' rest' (takeUnits A w n r) ∧ rest'.length < w + 1 := by
  induction n generalizing us rest r with
  | zero => exact ⟨us, rest, h, by omega⟩
  | succ n ih =>
    have hcnt := h.cnt
    rcases takeUnits_succ A w n r with ⟨hlt, he⟩ | ⟨hge, he⟩
    · rw [he]
      exact ⟨us, rest, h, by omega⟩
    · have hw' : w < rest.length := by omega
      have hcut : rest = rest.take w ++ [rest[w]] ++ rest.drop (w + 1) := by
        rw [List.take_concat_get', List.take_append_drop]
      rw [hcut] at h
      rw [he]
      exact ih (takeUnit_decoded hw (by simp; omega) h) (by rw [List.length_drop]; omega)

/-- The bits of a byte's low group, highest first (R44). -/
def highBits (ow : Nat) (p : Byte) : List Bool := (List.range ow).map fun i => p.getLsbD (ow - 1 - i)

theorem highStream_eq_flatMap (ow : Nat) (P : Bytes) : highStream ow P = P.flatMap (highBits ow) := rfl

@[simp] theorem highBits_length (ow : Nat) (p : Byte) : (highBits ow p).length = ow := by simp [highBits]

/-- The low group of a byte as a number (R44). -/
theorem lsbFirst_reverse_highBits (ow : Nat) (p : Byte) : lsbFirst (highBits ow p).reverse = p.toNat % 2 ^ ow := by
  have hrev : (highBits ow p).reverse = (List.range ow).map p.getLsbD := by
    refine List.ext_getElem (by simp) fun i hi _ => ?_
    have hi' : i < ow := by simpa using hi
    simp [highBits, show ow - 1 - (ow - 1 - i) = i by omega]
  rw [hrev, lsbFirst_low_bits]

/-- One input byte: its group joins the pending bits, then whole units are decoded (R98, R99). -/
theorem unpackByte_decoded {A : Bytes} {w ow : Nat} (hpre : pre A w ow) {l : List Bool} {us : List (List Bool)}
    {rest : List Bool} {r : UnpackRegs} (h : Decoded A w l us rest r) (hlt : rest.length < w + 1) (p : Byte) :
    ∃ us' rest', Decoded A w (l ++ highBits ow p) us' rest' (unpackByte A w ow r p) ∧ rest'.length < w + 1 := by
  obtain ⟨-, hw, h1, h8, -⟩ := hpre
  have hcnt := h.cnt
  refine takeUnits_decoded hw 14 (us := us) (rest := rest ++ highBits ow p) ?_ (by simp; omega)
  constructor
  case stream => rw [h.stream, List.append_assoc]
  case whole => exact h.whole
  case acc =>
    have hrest : lsbFirst rest.reverse < 2 ^ 6 := by
      have hlen := lsbFirst_lt rest.reverse
      rw [List.length_reverse] at hlen
      exact lt_of_lt_of_le hlen (Nat.pow_le_pow_right (by omega) (by omega))
    have hlow : ((p &&& lowMask ow).setWidth 14).toNat = p.toNat % 2 ^ ow := by
      rw [BitVec.toNat_setWidth, BitVec.toNat_and, lowMask_toNat ow h8, Nat.and_two_pow_sub_one_eq_mod]
      exact Nat.mod_eq_of_lt (lt_of_le_of_lt (Nat.mod_le _ _) (lt_trans p.isLt (by omega)))
    have hhigh : (r.acc <<< ow).toNat = 2 ^ ow * lsbFirst rest.reverse := by
      have hpow := Nat.pow_le_pow_right (n := 2) (by omega) h8
      have hmul : 2 ^ ow * lsbFirst rest.reverse < 2 ^ 8 * 2 ^ 6 := Nat.mul_lt_mul_of_le_of_lt hpow hrest (by omega)
      rw [BitVec.toNat_shiftLeft, Nat.shiftLeft_eq, h.acc, Nat.mul_comm, Nat.mod_eq_of_lt (lt_of_lt_of_le hmul (by omega))]
    rw [BitVec.toNat_or, hhigh, hlow, ← Nat.two_pow_add_eq_or_of_lt (Nat.mod_lt _ (Nat.two_pow_pos ow)),
      List.reverse_append, lsbFirst_append, List.length_reverse, highBits_length, lsbFirst_reverse_highBits, Nat.add_comm]
  case cnt =>
    rw [List.length_append, highBits_length, ← hcnt, BitVec.toNat_ofNat, Nat.mod_eq_of_lt (by omega)]
  case lrc => exact h.lrc
  case pos => exact h.pos
  case lastnz => exact h.lastnz
  case sym => exact h.sym
  case mrk => exact h.mrk

/-- All input bytes, from any registers that hold the stream so far (R99). -/
theorem unpackBytes_decoded {A : Bytes} {w ow : Nat} (hpre : pre A w ow) (P : Bytes) {l : List Bool}
    {us : List (List Bool)} {rest : List Bool} {r : UnpackRegs} (h : Decoded A w l us rest r)
    (hlt : rest.length < w + 1) :
    ∃ us' rest', Decoded A w (l ++ highStream ow P) us' rest' (P.foldl (unpackByte A w ow) r) ∧
      rest'.length < w + 1 := by
  induction P generalizing l us rest r with
  | nil => exact ⟨us, rest, by simpa [highStream] using h, hlt⟩
  | cons p P ih =>
    obtain ⟨us₁, rest₁, h₁, hlt₁⟩ := unpackByte_decoded hpre h hlt p
    rw [highStream_eq_flatMap, List.flatMap_cons, ← List.append_assoc]
    exact ih h₁ hlt₁

/-- UNPACK decodes the whole units of the stream of R44. -/
theorem unpackRun_decoded {A : Bytes} {w ow : Nat} (hpre : pre A w ow) (P : Bytes) :
    ∃ rest, Decoded A w (highStream ow P) (units w (highStream ow P)) rest (unpackRun A w ow P) ∧
      rest.length < w + 1 := by
  obtain ⟨us, rest, h, hlt⟩ := unpackBytes_decoded hpre P (decoded_fresh A w) (Nat.succ_pos w)
  rw [List.nil_append] at h
  exact ⟨rest, (h.units_eq hlt).symm ▸ h, hlt⟩

/-- UNPACK's four results are those read from the bit stream (R97, R100, R101). -/
theorem unpackResult_eq_unpacked {A : Bytes} {w ow : Nat} (hpre : pre A w ow) (P : Bytes) :
    unpackResult (unpackRun A w ow P) = unpacked A w ow P := by
  obtain ⟨rest, h, -⟩ := unpackRun_decoded hpre P
  rw [unpackResult, unpacked, unpackRun_pos hpre, h.lastnz, h.sym, h.mrk, h.lrc, ← List.map_take]
  rfl

end Sys2Proof.PackerProofs

/-! PROOFS, part 8. PACK and UNPACK as operations, what a transaction does not see of the bytes received before it, a request
placed by its table word, and the link primitives. -/

namespace Sys2Proof.MemoryProofs
open Sys2Proof.Machine Sys2Proof.Spec Sys2Proof.Laws Sys2Proof.StateProofs Sys2Proof.PackerProofs

/-! ### PACK and UNPACK as operations -/

section
variable {A : Bytes} {w ow : Nat} {s : State}

/-- A PACK that is taken up (R43, R93). -/
theorem exec_pack_of_taken (hpre : pre A w ow) (ht : taken (.pack A w ow) s) :
    exec (.pack A w ow) s =
      .next (complete { discardPackRegs (accept 0x01 s) with out0 := OutBuf.ofBytes (packed A w ow s.in0.bytes) }) := by
  have hp := (packerPre_iff_pre A w ow).mpr hpre
  have hfits := (packFits_iff A w ow s).mpr fun _ => ht.2 hpre
  show execPack A w ow s = _
  rw [execPack, start_of_accepted _ ht.1.1 ht.1.2 hfits, pack, if_pos hp, accept_in0, packRun_out_eq_packed hpre]

/-- An UNPACK that is taken up (R44, R99). -/
theorem exec_unpack_of_taken (hpre : pre A w ow) (ht : taken (.unpack A w ow) s) :
    exec (.unpack A w ow) s =
      .next (complete { discardUnpackRegs (accept 0x02 s) with out0 := unpacked A w ow s.in0.bytes }) := by
  have hp := (packerPre_iff_pre A w ow).mpr hpre
  have hfits := (unpackFits_iff A w ow s).mpr fun _ => ht.2 hpre
  show execUnpack A w ow s = _
  rw [execUnpack, start_of_accepted _ ht.1.1 ht.1.2 hfits, unpack, if_pos hp, accept_in0, unpackResult_eq_unpacked hpre]

end

/-- Settles O12: the bytes by the bit stream of PACK's registers, `ACC` within `CNT` whatever the free values are. -/
theorem packResult : Obligations.PackResult := by
  intro A w ow s hpre ht
  exact ⟨_, _, _, _, _, discardPackRegs_acc_lt (accept 0x01 s), exec_pack_of_taken hpre ht⟩

/-- Settles O15: the results by the units UNPACK's registers decode, `ACC` within `CNT` whatever the free values are. -/
theorem unpackResult : Obligations.UnpackResult := by
  intro A w ow s hpre ht
  exact ⟨_, _, _, _, _, _, _, (discardUnpackRegs_bounds (accept 0x02 s)).1, exec_unpack_of_taken hpre ht⟩

/-! ### What was received before a transaction -/

/-- The state `s` with other bytes left in `RXF` and `RXBUF`. -/
def withStale (X Y : Bytes) (s : State) : State := { s with rxf := X, rxbuf := Y }

section
variable {X Y : Bytes} {s : State}

/-- A transaction starts with a flush and an empty `RXBUF`: its outcome is the same whatever they held (R56, R146). -/
theorem transact_withStale (C : Bytes) (timeout : Nat) :
    transact C timeout (withStale X Y s) = transact C timeout s := by
  rw [transact_eq_straightLine, transact_eq_straightLine]
  rfl

theorem sendWait_withStale (C : Bytes) (timeout : Nat) (k : State → Result) :
    sendWait C timeout (withStale X Y s) k = sendWait C timeout s k := by
  rw [sendWait, transact_withStale, sendWait]

theorem command_withStale (C : Bytes) (timeout : Nat) (arg : Byte) (k : State → Result) :
    command C timeout arg (withStale X Y s) k = command C timeout arg s k :=
  sendWait_withStale C timeout _

/-- An operation that is taken up ends alike when its body does. -/
theorem start_withStale {op : OpSel} {body : State → Result} (hs : ready s)
    (hbody : body (withStale X Y (accept op s)) = body (accept op s)) :
    start op true (withStale X Y s) body = start op true s body := by
  rw [start_of_accepted body hs.1 hs.2 rfl, start_of_accepted (s := withStale X Y s) body hs.1 hs.2 rfl]
  exact hbody

end

/-- Settles O49: the body of each of these operations is one transaction and what follows it. -/
theorem staleBytesHaveNoInfluence : Obligations.StaleBytesHaveNoInfluence := by
  intro i s X Y hs hi
  change exec i (withStale X Y s) = exec i s
  cases i with
  | pack | unpack | isoenc | isodec | rawenc | rawdec | send | parse | reset | writeRaw | setBpi | cmdReset => cases hi
  | readIso | readRaw | writeIso | erase | setHico | setLoco | setBpc =>
    unfold exec
    refine start_withStale hs ?_
    exact command_withStale ..
  | sendwait | cmdReadIso | cmdReadRaw | cmdWriteIso | cmdWriteRaw | cmdErase | cmdSetBpc | cmdSetBpi | cmdSetHico
    | cmdSetLoco =>
    unfold exec
    refine start_withStale hs ?_
    exact sendWait_withStale ..

/-! ### A placed request -/

/-- `withFetchWord` puts the request of the word in front of the host's acts. -/
theorem withFetchWord_of_request {s : State} {nbits w : Nat} {r : Request}
    (h : requestOfTableWord s.cfg nbits w = some r) :
    s.withFetchWord nbits w = { s with host := .request r :: s.host } := by
  simp only [State.withFetchWord, h]

/-- Settles O5: the placed request is the next act, and the step leaves the host's acts as they were given. -/
theorem fetchWordRunsNext : Obligations.FetchWordRunsNext := by
  intro s nbits w r i hr hi
  rw [withFetchWord_of_request hr]
  exact (stepRunsDecodedOperation { s with host := .request r :: s.host } r s.host rfl).1 i hi

/-! ### The link -/

/-- A drain takes the front of `RXF` (R53). -/
theorem linkDrain_spec (s : State) (max : Nat) :
    ∃ bytes, linkDrain max s = (bytes, { s with rxf := s.rxf.drop bytes.length }) ∧
      s.rxf = bytes ++ s.rxf.drop bytes.length ∧ bytes.length = min s.rxf.length max := by
  have hlen : (s.rxf.take max).length = min s.rxf.length max := by rw [List.length_take, Nat.min_comm]
  have hdrop : s.rxf.drop (s.rxf.take max).length = s.rxf.drop max := by
    rw [List.length_take, ← List.drop_eq_drop_min]
  refine ⟨s.rxf.take max, ?_, ?_, hlen⟩
  · rw [hdrop, linkDrain]
  · rw [hdrop, List.take_append_drop]

/-- Settles O55: the write and the flush by their definitions, the first read by its two cases, the drain by `take` and
`drop`. -/
theorem linkPrimitives : Obligations.LinkPrimitives := by
  intro s S max
  refine ⟨rfl, rfl, fun h => ?_, fun v rest h => ?_, linkDrain_spec s max⟩
  · rcases linkReadFirst_cases s with ⟨-, he⟩ | ⟨v, rest, h', -⟩
    · exact he
    · rw [h] at h'
      cases h'
  · rcases linkReadFirst_cases s with ⟨h', -⟩ | ⟨v', rest', h', he⟩
    · rw [h'] at h
      cases h
    · rw [h] at h'
      cases h'
      exact he

end Sys2Proof.MemoryProofs

/-! PROOFS, part 9. The decoder and the encoder (R63 to R65, R79, R80): the wire decoder is a lookup in the table of the ten
opcodes, the select decoder answers exactly the codes of R79; and what READ_ISO and READ_RAW do with a response's data. -/

namespace Sys2Proof.EncodingProofs
open Sys2Proof.Machine Sys2Proof.Spec Sys2Proof.Laws Sys2Proof.StateProofs

/-! ### Payloads (R65) -/

section
variable {o : Byte} {p : Bytes} {i : Instr}

theorem noPayload_eq_ok_iff {j : Instr} : noPayload o j p = .ok i ↔ p = [] ∧ j = i := by
  cases p <;> simp [noPayload]

theorem onePayload_eq_ok_iff {f : Byte → Instr} : onePayload o f p = .ok i ↔ ∃ b, p = [b] ∧ f b = i := by
  unfold onePayload
  split <;> simp_all

theorem threePayload_eq_ok_iff {f : Byte → Byte → Byte → Instr} :
    threePayload o f p = .ok i ↔ ∃ b1 b2 b3, p = [b1, b2, b3] ∧ f b1 b2 b3 = i := by
  unfold threePayload
  split <;> simp_all

end

/-! ### Command frames (R63, R64) -/

/-- The decoder of a command's payload; it is given the opcode, to name it where it refuses. -/
abbrev PayloadDecoder := Byte → Bytes → Except DecodeError Instr

/-- The rows of R64: each opcode with the decoder of its payload (R65). -/
def commandTable (c : Config) : List (Byte × PayloadDecoder) :=
  [(c.opcReset, (noPayload · .cmdReset)), (c.opcReadIso, (noPayload · .cmdReadIso)),
   (c.opcReadRaw, (noPayload · .cmdReadRaw)), (c.opcWriteIso, fun _ p => .ok (.cmdWriteIso p)),
   (c.opcWriteRaw, fun _ p => .ok (.cmdWriteRaw p)), (c.opcErase, (onePayload · .cmdErase)),
   (c.opcSetBpc, (threePayload · .cmdSetBpc)), (c.opcSetBpi, (onePayload · .cmdSetBpi)),
   (c.opcSetHico, (noPayload · .cmdSetHico)), (c.opcSetLoco, (noPayload · .cmdSetLoco))]

theorem commandTable_opcodes (c : Config) : (commandTable c).map Prod.fst = c.opcodes := rfl

section
variable {c : Config} {o : Byte} {p : Bytes} {f : PayloadDecoder} {i : Instr}

/-- The answer of the first row of `rows` whose opcode is `o`. -/
def lookupCommand (rows : List (Byte × PayloadDecoder)) (o : Byte) (p : Bytes) : Except DecodeError Instr :=
  match rows.lookup o with
  | some f => f o p
  | none => .error (.unknownOpcode o)

/-- The first row answers its own opcode, the rows after it every other. -/
theorem lookupCommand_cons (k : Byte) (f : PayloadDecoder) (rows : List (Byte × PayloadDecoder)) (o : Byte) (p : Bytes) :
    lookupCommand ((k, f) :: rows) o p = if o = k then f o p else lookupCommand rows o p := by
  by_cases h : o = k
  · simp [lookupCommand, List.lookup, h]
  · have hbeq : (o == k) = false := by simpa using h
    simp [lookupCommand, List.lookup, h, hbeq]

/-- The command decoder takes the first row whose opcode is the frame's. -/
theorem decodeCommand_eq_lookup (c : Config) (o : Byte) (p : Bytes) :
    decodeCommand c o p = lookupCommand (commandTable c) o p := by
  simp only [decodeCommand, commandTable, lookupCommand_cons]
  rfl

/-- With distinct opcodes every row is the first one with its opcode. -/
theorem decodeCommand_of_row (hc : c.opcodes.Nodup) (hrow : (o, f) ∈ commandTable c) : decodeCommand c o p = f o p := by
  obtain ⟨before, after, htable⟩ := List.append_of_mem hrow
  have hfirst : ∀ row ∈ before, o ≠ row.1 := by
    rw [← commandTable_opcodes, htable, List.map_append, List.map_cons, List.nodup_append] at hc
    obtain ⟨-, -, hdisjoint⟩ := hc
    exact fun row hmem heq => hdisjoint row.1 (List.mem_map_of_mem hmem) o (by simp) heq.symm
  have hlookup : (commandTable c).lookup o = some f :=
    List.lookup_eq_some_iff.mpr ⟨before, after, htable, by simpa using hfirst⟩
  rw [decodeCommand_eq_lookup, lookupCommand, hlookup]

/-- What the command decoder accepts, a row with the frame's opcode accepts. -/
theorem row_of_decodeCommand (h : decodeCommand c o p = .ok i) : ∃ f, (o, f) ∈ commandTable c ∧ f o p = .ok i := by
  rw [decodeCommand_eq_lookup, lookupCommand] at h
  split at h
  · next f hl =>
    obtain ⟨before, after, htable, -⟩ := List.lookup_eq_some_iff.mp hl
    exact ⟨f, by simp [htable], h⟩
  · cases h

/-- A frame is decoded when it begins with `ESC` and an opcode, and its command is (R63). -/
theorem decodeWire_eq_ok_iff {F : Bytes} :
    decodeWire c F = .ok i ↔ ∃ o p, F = c.esc :: o :: p ∧ decodeCommand c o p = .ok i := by
  constructor
  · intro h
    match F with
    | [] | [_] => cases h
    | e :: o :: p =>
      rw [decodeWire] at h
      split at h
      · next he => exact ⟨o, p, by rw [he], h⟩
      · cases h
  · rintro ⟨o, p, rfl, h⟩
    rw [decodeWire, if_pos rfl, h]

theorem encode_of_noPayload {j : Instr} (hj : encode c j = .wire [c.esc, o]) (h : noPayload o j p = .ok i) :
    encode c i = .wire (c.esc :: o :: p) := by
  obtain ⟨rfl, rfl⟩ := noPayload_eq_ok_iff.mp h
  exact hj

theorem encode_of_onePayload {g : Byte → Instr} (hg : ∀ b, encode c (g b) = .wire [c.esc, o, b])
    (h : onePayload o g p = .ok i) : encode c i = .wire (c.esc :: o :: p) := by
  obtain ⟨b, rfl, rfl⟩ := onePayload_eq_ok_iff.mp h
  exact hg b

theorem encode_of_threePayload {g : Byte → Byte → Byte → Instr}
    (hg : ∀ b1 b2 b3, encode c (g b1 b2 b3) = .wire [c.esc, o, b1, b2, b3]) (h : threePayload o g p = .ok i) :
    encode c i = .wire (c.esc :: o :: p) := by
  obtain ⟨b1, b2, b3, rfl, rfl⟩ := threePayload_eq_ok_iff.mp h
  exact hg b1 b2 b3

/-- A row accepts only the payload its command is encoded with. -/
theorem encode_of_row (hrow : (o, f) ∈ commandTable c) (h : f o p = .ok i) : encode c i = .wire (c.esc :: o :: p) := by
  simp only [commandTable, List.mem_cons, List.not_mem_nil, or_false, Prod.mk.injEq] at hrow
  rcases hrow with ⟨rfl, rfl⟩ | ⟨rfl, rfl⟩ | ⟨rfl, rfl⟩ | ⟨rfl, rfl⟩ | ⟨rfl, rfl⟩ | ⟨rfl, rfl⟩ | ⟨rfl, rfl⟩ | ⟨rfl, rfl⟩ |
    ⟨rfl, rfl⟩ | ⟨rfl, rfl⟩
  · exact encode_of_noPayload rfl h
  · exact encode_of_noPayload rfl h
  · exact encode_of_noPayload rfl h
  · cases h
    rfl
  · cases h
    rfl
  · exact encode_of_onePayload (fun _ => rfl) h
  · exact encode_of_threePayload (fun _ _ _ => rfl) h
  · exact encode_of_onePayload (fun _ => rfl) h
  · exact encode_of_noPayload rfl h
  · exact encode_of_noPayload rfl h

/-- A command whose row `k` accepts its payload is decoded from its frame. -/
theorem decode_encode_of_row (hc : c.opcodes.Nodup) (k : Nat) (hrow : (commandTable c)[k]? = some (o, f))
    (henc : encode c i = .wire (c.esc :: o :: p)) (h : f o p = .ok i) : decode c (encode c i) = .ok i := by
  rw [henc]
  exact decodeWire_eq_ok_iff.mpr ⟨o, p, rfl, (decodeCommand_of_row hc (List.mem_of_getElem? hrow)).trans h⟩

end

/-- Settles O1: a select code by its row of R79, a frame by its row of R64, which the distinct opcodes make the first. -/
theorem decodeEncodeRoundTrip : Obligations.DecodeEncodeRoundTrip := by
  intro c i hc
  cases i with
  | cmdReset => exact decode_encode_of_row hc 0 rfl rfl rfl
  | cmdReadIso => exact decode_encode_of_row hc 1 rfl rfl rfl
  | cmdReadRaw => exact decode_encode_of_row hc 2 rfl rfl rfl
  | cmdWriteIso block => exact decode_encode_of_row hc 3 rfl rfl rfl
  | cmdWriteRaw block => exact decode_encode_of_row hc 4 rfl rfl rfl
  | cmdErase mask => exact decode_encode_of_row hc 5 rfl rfl rfl
  | cmdSetBpc b1 b2 b3 => exact decode_encode_of_row hc 6 rfl rfl rfl
  | cmdSetBpi mode => exact decode_encode_of_row hc 7 rfl rfl rfl
  | cmdSetHico => exact decode_encode_of_row hc 8 rfl rfl rfl
  | cmdSetLoco => exact decode_encode_of_row hc 9 rfl rfl rfl
  | pack | unpack | isoenc | isodec | rawenc | rawdec | send | sendwait | parse | reset | readIso | readRaw | writeIso
    | writeRaw | erase | setHico | setLoco | setBpi | setBpc => rfl

/-! ### Select codes (R79, R80) -/

/-- The reserved select codes (R80). -/
def reservedOpsel (op : OpSel) : Prop :=
  op.toNat = 0x00 ∨ (0x0A ≤ op.toNat ∧ op.toNat ≤ 0x0F) ∨ 0x1A ≤ op.toNat

/-- `op` selects the host operation `i`. -/
def Selects (op : OpSel) (i : Instr) : Prop := op = selectCode i ∧ ∀ c, ∃ a, encode c i = .op op a

/-- All that the select decoder can do: refuse a reserved code by name, or answer the operation of an assigned one. -/
theorem decodeOp_cases (op : OpSel) (a : Scalars) :
    (reservedOpsel op ∧ decodeOp op a = .error (.reservedOpsel op)) ∨
    (¬ reservedOpsel op ∧ ∃ i, decodeOp op a = .ok i ∧ Selects op i) := by
  have assigned : ∀ i, op.toNat = (selectCode i).toNat → (∀ c, ∃ a', encode c i = .op (selectCode i) a') →
      ∃ j, Except.ok (ε := DecodeError) i = .ok j ∧ Selects op j := by
    intro i hop henc
    obtain rfl := BitVec.eq_of_toNat_eq hop
    exact ⟨i, rfl, rfl, henc⟩
  unfold decodeOp reservedOpsel
  split
  case h_20 =>
    have hlt := op.isLt
    refine .inl ⟨?_, rfl⟩
    -- `omega` reads `¬ p`, not `p → False`
    simp only [imp_false] at *
    omega
  all_goals
    next hop => exact .inr ⟨by omega, assigned _ hop fun c => ⟨_, rfl⟩⟩

/-- Settles O2: a frame by the row that accepted it, a select code by the decoder's cases. -/
theorem decodedRequestIsTheEncoding : Obligations.DecodedRequestIsTheEncoding := by
  intro c i
  constructor
  · intro F h
    obtain ⟨o, p, rfl, hcmd⟩ := decodeWire_eq_ok_iff.mp h
    obtain ⟨f, hrow, hf⟩ := row_of_decodeCommand hcmd
    exact encode_of_row hrow hf
  · intro op a h
    change decodeOp op a = .ok i at h
    rcases decodeOp_cases op a with ⟨-, herr⟩ | ⟨-, j, hok, hop, henc⟩
    · rw [herr] at h
      cases h
    · rw [hok] at h
      cases h
      exact ⟨hop, henc c⟩

/-- Settles O6: a request runs as the decoder reads it (O4), and the decoder refuses exactly the reserved codes. -/
theorem reservedOpselHasNoEffect : Obligations.ReservedOpselHasNoEffect := by
  intro s op a rest hhost
  obtain ⟨hruns, hrefused⟩ := stepRunsDecodedOperation s (.op op a) rest hhost
  rcases decodeOp_cases op a with ⟨hres, herr⟩ | ⟨hres, i, hok, -⟩
  · exact ⟨fun _ => hrefused _ herr, fun h => absurd hres h⟩
  · exact ⟨fun h => absurd h hres, fun _ => ⟨i, hok, hruns i hok⟩⟩

/-! ### Words of the opcode table -/

/-- A word that stands for the encoding of an operation decodes to it. -/
theorem decodeTableWord_of_encode {nbits w : Nat} {i : Instr}
    (h : requestOfTableWord Config.default nbits w = some (encode Config.default i)) : decodeTableWord nbits w = some i := by
  have hdefault : Config.default.opcodes.Nodup := by decide
  simp only [decodeTableWord, h, decodeEncodeRoundTrip _ i hdefault]
  rfl

/-- A word whose request the decoder refuses stands for no operation. -/
theorem decodeTableWord_of_refused {nbits w : Nat} {r : Request} {e : DecodeError}
    (h : requestOfTableWord Config.default nbits w = some r) (he : decode Config.default r = .error e) :
    decodeTableWord nbits w = none := by
  simp only [decodeTableWord, h, he]
  rfl

/-- Settles O3: five words are encodings, 0x0A is a reserved select code, 0x00 an unknown opcode. -/
theorem decodeKnownWords : Obligations.DecodeKnownWords := by
  refine ⟨decodeTableWord_of_encode rfl, decodeTableWord_of_encode rfl, decodeTableWord_of_encode rfl,
    decodeTableWord_of_refused rfl rfl, decodeTableWord_of_encode ?_, decodeTableWord_of_encode ?_,
    decodeTableWord_of_refused (r := .wire [0x1B, 0x00]) (e := .unknownOpcode 0x00) ?_ ?_⟩
  all_goals decide

/-! ### The reads and the decoders (R82, R172, R173) -/

section
variable {C : Bytes} {timeout : Nat} {arg : Byte} {s : State} {r : Response} {k : State → Result}

/-- A transaction that received a response goes on with it (R151, R152). -/
theorem sendWait_of_response (he : early s ≠ []) (hr : isResponse s.cfg (accumulated s) r) :
    sendWait C timeout s k = k { heard C s with rsp := r, tstate := .idle } := by
  have hparse := (parseResponse_iff_isResponse ..).mpr hr
  rcases sendWait_outcome C timeout s k with ⟨hnone, -⟩ | ⟨-, hnone, -⟩ | ⟨r', -, hr', hk⟩
  · exact absurd hnone he
  · rw [hnone] at hparse
    cases hparse
  · rw [(parseResponse_iff_isResponse ..).mpr hr'] at hparse
    cases hparse
    exact hk

/-- A command whose response has the status `ST_OK` goes on (R167). -/
theorem command_of_accepted (he : early s ≠ []) (hr : isResponse s.cfg (accumulated s) r) (hst : r.status = s.cfg.stOK) :
    command C timeout arg s k = k { heard C s with rsp := r, tstate := .idle } := by
  rw [command, sendWait_of_response he hr]
  exact if_pos hst

end

section
variable {s : State} {r : Response}

/-- How READ_ISO ends when its response is accepted: with the strips or the error of the ISO decoder (R172, R193). -/
theorem exec_readIso_cases (hs : ready s) (he : early s ≠ []) (hr : isResponse s.cfg (accumulated s) r)
    (hst : r.status = s.cfg.stOK) :
    (∃ o1 o2 o3, isoDecode s.cfg r.data = .ok (o1, o2, o3) ∧ exec .readIso s =
      .next { ended 0x11 (heard [s.cfg.opcReadIso] s) with
        rsp := r, out0 := OutBuf.ofStrip o1, out1 := OutBuf.ofStrip o2, out2 := OutBuf.ofStrip o3 }) ∨
    ∃ offset, isoDecode s.cfg r.data = .error offset ∧ exec .readIso s =
      .next { framed 0x11 offset r.data (heard [s.cfg.opcReadIso] s) with rsp := r } := by
  have hread : exec .readIso s = isoDecodeTo r.data
      { heard [s.cfg.opcReadIso] (accept 0x11 s) with rsp := r, tstate := .idle } := by
    show execReadIso s = _
    rw [execReadIso, start_of_accepted _ hs.1 hs.2 rfl]
    exact command_of_accepted (s := accept 0x11 s) he hr hst
  rw [hread]
  exact isoDecodeTo_cases r.data { heard [s.cfg.opcReadIso] (accept 0x11 s) with rsp := r, tstate := .idle }

/-- READ_RAW of an accepted response whose data RAWDEC rejects fails as it does (R173). -/
theorem exec_readRaw_of_rejected {offset : Nat} (hs : ready s) (he : early s ≠ [])
    (hr : isResponse s.cfg (accumulated s) r) (hst : r.status = s.cfg.stOK) (hdec : rawDecode s.cfg r.data = .error offset) :
    exec .readRaw s = .next { framed 0x12 offset r.data (heard [s.cfg.opcReadRaw] s) with rsp := r } := by
  have hcfg : (heard [s.cfg.opcReadRaw] (accept 0x12 s)).cfg = s.cfg := rfl
  show execReadRaw s = _
  rw [execReadRaw, start_of_accepted _ hs.1 hs.2 rfl, accept_cfg, command_of_accepted (s := accept 0x12 s) he hr hst]
  simp only [hcfg, hdec]
  rfl

end

section
variable {d t : State}

/-- ISODEC that is taken up decodes its operand (R115). -/
theorem exec_isodec_of_ready (hd : ready d) : exec .isodec d = isoDecodeTo d.in0.bytes (accept 0x04 d) := by
  show execIsodec d = _
  rw [execIsodec, start_of_accepted _ hd.1 hd.2 rfl, accept_in0]

/-- How ISODEC ends (R115, R116). -/
theorem exec_isodec_cases (hd : ready d) (h : exec .isodec d = .next t) :
    (∃ o1 o2 o3, isoDecode d.cfg d.in0.bytes = .ok (o1, o2, o3) ∧ t = { ended 0x04 d with
      out0 := OutBuf.ofStrip o1, out1 := OutBuf.ofStrip o2, out2 := OutBuf.ofStrip o3 }) ∨
    ∃ offset, isoDecode d.cfg d.in0.bytes = .error offset ∧ t = framed 0x04 offset d.in0.bytes d := by
  rw [exec_isodec_of_ready hd] at h
  rcases isoDecodeTo_cases d.in0.bytes (accept 0x04 d) with ⟨o1, o2, o3, hdec, hend⟩ | ⟨offset, hdec, hend⟩
  · rw [hend] at h
    cases h
    exact .inl ⟨o1, o2, o3, hdec, rfl⟩
  · rw [hend] at h
    cases h
    exact .inr ⟨offset, hdec, rfl⟩

/-- A RAWDEC that ends in an error ends in the decoder's (R132). -/
theorem exec_rawdec_of_failed (hd : ready d) (h : exec .rawdec d = .next t) (hk : t.err.kind ≠ .none) :
    ∃ offset, rawDecode d.cfg d.in0.bytes = .error offset ∧ t = framed 0x06 offset d.in0.bytes d := by
  change execRawdec d = _ at h
  rw [execRawdec, start_of_accepted _ hd.1 hd.2 rfl, accept_cfg, accept_in0] at h
  cases hdec : rawDecode d.cfg d.in0.bytes with
  | ok strips =>
    rw [hdec] at h
    cases h
    exact absurd rfl hk
  | error offset =>
    rw [hdec] at h
    cases h
    exact ⟨offset, rfl, rfl⟩

end

/-- Settles O37: the read decodes in the state its transaction leaves, the decoder's operation in its own; both see the
same parameters and the same bytes. -/
theorem readsDecodeTheResponseData : Obligations.ReadsDecodeTheResponseData := by
  intro s d t r hs he hr hst hd hcfg hin
  have hiso := exec_readIso_cases hs he hr hst
  refine ⟨fun h hk => ?_, fun h hk => ?_, fun h hk => ?_⟩
  · rcases exec_isodec_cases hd h with ⟨o1, o2, o3, hdec, rfl⟩ | ⟨offset, -, rfl⟩
    · rw [hcfg, hin] at hdec
      rcases hiso with ⟨p1, p2, p3, hdec', hend⟩ | ⟨offset, hdec', -⟩
      · cases hdec.symm.trans hdec'
        exact hend
      · cases hdec.symm.trans hdec'
    · cases hk
  · rcases exec_isodec_cases hd h with ⟨o1, o2, o3, -, rfl⟩ | ⟨offset, hdec, rfl⟩
    · exact absurd rfl hk
    · rw [hcfg, hin] at hdec
      rcases hiso with ⟨p1, p2, p3, hdec', -⟩ | ⟨offset', hdec', hend⟩
      · cases hdec.symm.trans hdec'
      · cases hdec.symm.trans hdec'
        rw [hin]
        exact hend
  · obtain ⟨offset, hdec, rfl⟩ := exec_rawdec_of_failed hd h hk
    rw [hcfg, hin] at hdec
    rw [exec_readRaw_of_rejected hs he hr hst hdec, hin]
    rfl

end Sys2Proof.EncodingProofs

/-! PROOFS, part 10. The link registers under the pure operations (R86, R111, R126, R156). -/

namespace Sys2Proof.StateProofs
open Sys2Proof.Machine Sys2Proof.Spec Sys2Proof.Laws

/-- The registers of the link and the device's plan are as they were (R23, R25, R56). -/
structure LinkKept (s t : State) : Prop where
  txs : t.txs = s.txs
  rxf : t.rxf = s.rxf
  rxbuf : t.rxbuf = s.rxbuf
  tmr : t.tmr = s.tmr
  dev : t.dev = s.dev

theorem exchanges_of_isPure {i : Instr} (hp : isPure i = true) (s : State) : exchanges s i = [] :=
  List.prefix_nil.mp (commandsOf_of_isPure hp s ▸ exchanges_prefix s i)

/-- A pure operation has no transaction, and nothing else of a running operation touches the link. -/
theorem Runs.linkKept {i : Instr} {s u : State} {ds : List Bytes} (hp : isPure i = true) (hu : Runs i s ds u) :
    LinkKept s u := by
  induction hu with
  | accepted => exact ⟨rfl, rfl, rfl, rfl, rfl⟩
  | packed _ _ ih => exact { ih with }
  | unpacked _ _ ih => exact { ih with }
  | passed _ hC => exact absurd (exchanges_of_isPure hp s ▸ hC) (by simp)

theorem Ends.linkKept {i : Instr} {s t : State} (hp : isPure i = true) (h : Ends i s t) : LinkKept s t := by
  have no_transaction : ∀ {ds : List Bytes} {C : Bytes}, ¬ ds ++ [C] <+: exchanges s i := by
    simp [exchanges_of_isPure hp s]
  cases h with
  | refused => exact ⟨rfl, rfl, rfl, rfl, rfl⟩
  | completed hu => exact { hu.linkKept hp with }
  | parsed => exact ⟨rfl, rfl, rfl, rfl, rfl⟩
  | sent _ hi => rcases hi with rfl | rfl | rfl <;> cases hp
  | codecFailed hu => exact { hu.linkKept hp with }
  | encodingFailed hu => exact { hu.linkKept hp with }
  | timedOut _ hC => exact absurd hC no_transaction
  | unparsable _ hC => exact absurd hC no_transaction
  | turnedDown _ hC => exact absurd hC no_transaction

/-- Settles O46: a pure operation ends in none of the ways that use the link. -/
theorem pureOperationsLeaveTheLink : Obligations.PureOperationsLeaveTheLink := by
  intro i s t hp h
  obtain ⟨htxs, hrxf, hrxbuf, htmr, hdev⟩ := (ends_of_exec h).linkKept hp
  exact ⟨htxs, hrxf, hrxbuf, htmr, hdev⟩

end Sys2Proof.StateProofs

/-! PROOFS, part 11. The packer's lookups and preconditions (R87, R90, R91) and the shape of PACK's output (R94). -/

namespace Sys2Proof.PackerProofs
open Sys2Proof.Machine Sys2Proof.Spec Sys2Proof.Laws Sys2Proof.StateProofs Sys2Proof.MemoryProofs

/-! ### Lookups -/

/-- Settles O9: the table's reversal shifted down to width `w`, bit by bit. -/
theorem widthReversal : Obligations.WidthReversal := by
  intro w f _ hw _
  refine ⟨rfl, fun i hi => ?_, ?_⟩
  · rw [revW_getLsbD hw, decide_eq_true hi, Bool.true_and]
  · rw [revW, Nat.sub_self, BitVec.ushiftRight_zero]

/-- Settles O10: the search stops at the least index that holds the character, and 64 entries fit a code. -/
theorem codeLookupIsLeastIndex : Obligations.CodeLookupIsLeastIndex := by
  intro A ch hlen
  refine ⟨fun c hc hleast => ?_, fun hch => ?_⟩
  · obtain ⟨hlt, hat⟩ := List.getElem?_eq_some_iff.mp hc
    have hfind : A.findIdx? (· == ch) = some c := by
      refine List.findIdx?_eq_some_iff_getElem.mpr ⟨hlt, by simp [hat], fun j hj => ?_⟩
      have := hleast j hj
      rw [List.getElem?_eq_getElem (hj.trans hlt)] at this
      simpa using this
    rw [codeOf, hfind, Option.getD_some, BitVec.toNat_ofNat]
    exact Nat.mod_eq_of_lt (hlt.trans_le hlen)
  · rw [codeOf_eq_codeIn, codeIn, if_neg hch]

/-! ### Preconditions -/

section
variable {A : Bytes} {w ow : Nat} {s : State}

/-- A PACK outside R91 is taken up and raises (R91, R195). -/
theorem exec_pack_of_not_pre (hpre : ¬ pre A w ow) (hs : ready s) :
    exec (.pack A w ow) s = .next (raise (.precondition 0) (accept 0x01 s)) := by
  have hp : ¬ packerPre A w ow = true := mt (packerPre_iff_pre A w ow).mp hpre
  have hfits := (packFits_iff A w ow s).mpr fun h => absurd h hp
  show execPack A w ow s = _
  rw [execPack, start_of_accepted _ hs.1 hs.2 hfits, pack, if_neg hp, raised]

/-- An UNPACK outside R91 is taken up and raises (R91, R195). -/
theorem exec_unpack_of_not_pre (hpre : ¬ pre A w ow) (hs : ready s) :
    exec (.unpack A w ow) s = .next (raise (.precondition 0) (accept 0x02 s)) := by
  have hp : ¬ packerPre A w ow = true := mt (packerPre_iff_pre A w ow).mp hpre
  have hfits := (unpackFits_iff A w ow s).mpr fun h => absurd h hp
  show execUnpack A w ow s = _
  rw [execUnpack, start_of_accepted _ hs.1 hs.2 hfits, unpack, if_neg hp, raised]

end

/-- Settles O14: outside R91 the body is the error entry alone, within it the completed operation. -/
theorem packerPreconditions : Obligations.PackerPreconditions := by
  intro A w ow s hs
  refine ⟨fun hpre => ⟨exec_pack_of_not_pre hpre hs, exec_unpack_of_not_pre hpre hs⟩, fun hpre => ⟨?_, ?_⟩⟩
  · intro t ht h
    cases (exec_pack_of_taken hpre ht).symm.trans h
    rfl
  · intro t ht h
    cases (exec_unpack_of_taken hpre ht).symm.trans h
    rfl

end Sys2Proof.PackerProofs

/-! PROOFS, part 12. The bit stream of PACK's output (R43, R94) and what UNPACK reads when each group of it comes in reversed
(R44, R45, R104). -/

namespace Sys2Proof.PackerProofs
open Sys2Proof.Machine Sys2Proof.Spec Sys2Proof.Laws Sys2Proof.StateProofs Sys2Proof.MemoryProofs

/-! ### The bytes of a stream -/

/-- The bits of a byte's low group, lowest first (R43). -/
def lowBits (ow : Nat) (p : Byte) : List Bool := (List.range ow).map p.getLsbD

theorem lowStream_cons (ow : Nat) (p : Byte) (P : Bytes) : lowStream ow (p :: P) = lowBits ow p ++ lowStream ow P := rfl

/-- A byte filled from bit 0 up reads back as its group, with zeros above it (R43, R47). -/
theorem lowBits_ofNat_lsbFirst {ow : Nat} (h8 : ow ≤ 8) {g : List Bool} (hg : g.length ≤ ow) :
    lowBits ow (BitVec.ofNat 8 (lsbFirst g)) = g ++ List.replicate (ow - g.length) false := by
  refine List.ext_getElem (by simp [lowBits]; omega) fun i hi _ => ?_
  have hlt : i < ow := by simpa [lowBits] using hi
  simp only [lowBits, List.getElem_map, List.getElem_range, BitVec.getLsbD_ofNat, lsbFirst_testBit,
    hlt.trans_le h8, decide_true, Bool.true_and, List.getElem_append]
  split
  · next h => rw [List.getD_eq_getElem _ _ h]
  · next h => rw [List.getD_eq_default _ _ (Nat.le_of_not_lt h), List.getElem_replicate]

theorem groupBytes_length (ow : Nat) (l : List Bool) : (groupBytes ow l).length = (l.length + (ow - 1)) / ow := by
  simp [groupBytes, groupsOf]

/-- Enough bytes for the stream, and less than a group too many (R94). -/
theorem groupBytes_bits {ow : Nat} (h1 : 1 ≤ ow) (l : List Bool) :
    l.length ≤ (groupBytes ow l).length * ow ∧ (groupBytes ow l).length * ow - l.length < ow := by
  have hdiv := Nat.div_add_mod (l.length + (ow - 1)) ow
  have hmod := Nat.mod_lt (l.length + (ow - 1)) h1
  rw [Nat.mul_comm] at hdiv
  rw [groupBytes_length]
  omega

/-- The stream of a filled byte sequence is the stream it was filled from, then zeros (R43, R94). -/
theorem lowStream_groupBytes {ow : Nat} (h1 : 1 ≤ ow) (h8 : ow ≤ 8) (l : List Bool) :
    lowStream ow (groupBytes ow l) = l ++ List.replicate ((groupBytes ow l).length * ow - l.length) false := by
  induction hn : l.length using Nat.strong_induction_on generalizing l with
  | h n ih =>
    by_cases hl : l = []
    · subst hl
      simp [h1, lowStream]
    · have hpos := List.length_pos_iff.mpr hl
      have hrest := ih (l.drop ow).length (by rw [List.length_drop]; omega) (l.drop ow) rfl
      rw [groupBytes_of_ne_nil h1 hl, lowStream_cons, lowBits_ofNat_lsbFirst h8 (List.length_take_le ow l), hrest,
        List.length_cons, Nat.succ_mul, List.length_drop, List.length_take]
      rcases Nat.le_total ow l.length with hle | hle
      · rw [Nat.min_eq_left hle, Nat.sub_self, List.replicate_zero, List.append_nil, ← List.append_assoc,
          List.take_append_drop]
        congr 2
        omega
      · rw [Nat.min_eq_right hle, List.take_of_length_le hle, List.drop_of_length_le hle, groupBytes_nil h1]
        simp [hn]

theorem groupBytes_lt {ow : Nat} {l : List Bool} {b : Byte} (hb : b ∈ groupBytes ow l) : b.toNat < 2 ^ ow := by
  obtain ⟨g, hg, rfl⟩ := List.mem_map.mp hb
  obtain ⟨j, -, rfl⟩ := List.mem_map.mp hg
  rw [BitVec.toNat_ofNat]
  calc _ ≤ lsbFirst ((l.drop (j * ow)).take ow) := Nat.mod_le _ _
    _ < 2 ^ ((l.drop (j * ow)).take ow).length := lsbFirst_lt _
    _ ≤ 2 ^ ow := Nat.pow_le_pow_right (by omega) (List.length_take_le _ _)

/-! ### The codes PACK sends -/

/-- The codes of PACK's units, the LRC last (R89, R94). -/
def sentCodes (A S : Bytes) : List Code := codes A S ++ [lrcOf (codes A S)]

@[simp] theorem sentCodes_length (A S : Bytes) : (sentCodes A S).length = S.length + 1 := by simp [sentCodes, codes]

theorem packStream_eq_flatten (A : Bytes) (w : Nat) (S : Bytes) :
    packStream A w S = ((sentCodes A S).map (unitBits w)).flatten := rfl

/-- PACK's stream has `m + 1` units (R94). -/
theorem length_packStream (A : Bytes) (w : Nat) (S : Bytes) : (packStream A w S).length = (S.length + 1) * (w + 1) := by
  simp [packStream_eq_flatten, List.length_flatten, Function.comp_def, unitBits_length]

theorem lrcOf_cons (c : Code) (cs : List Code) : lrcOf (c :: cs) = c ^^^ lrcOf cs := by
  rw [lrcOf, lrcOf, List.foldl_cons, BitVec.xor_comm, List.foldl_assoc]

theorem lrcOf_append_list (cs ds : List Code) : lrcOf (cs ++ ds) = lrcOf cs ^^^ lrcOf ds := by
  induction cs with
  | nil => simp [lrcOf]
  | cons c cs ih => rw [List.cons_append, lrcOf_cons, lrcOf_cons, ih, BitVec.xor_assoc]

/-- The LRC is within the code width (R17). -/
theorem lrcOf_lt {w : Nat} {cs : List Code} (h : ∀ c ∈ cs, c.toNat < 2 ^ w) : (lrcOf cs).toNat < 2 ^ w := by
  induction cs with
  | nil => exact Nat.two_pow_pos w
  | cons c cs ih =>
    rw [lrcOf_cons, BitVec.toNat_xor]
    exact Nat.xor_lt_two_pow (h c List.mem_cons_self) (ih fun d hd => h d (List.mem_cons_of_mem c hd))

/-- The LRC unit makes the XOR of all units zero (R89). -/
theorem lrcOf_sentCodes (A S : Bytes) : lrcOf (sentCodes A S) = 0 := by
  rw [sentCodes, lrcOf_append]
  exact BitVec.xor_self

theorem sentCodes_lt {A : Bytes} {w : Nat} (hA : A.length = 2 ^ w) (S : Bytes) : ∀ c ∈ sentCodes A S, c.toNat < 2 ^ w := by
  have hcodes : ∀ c ∈ codes A S, c.toNat < 2 ^ w := by
    intro c hc
    obtain ⟨ch, -, rfl⟩ := List.mem_map.mp hc
    exact codeOf_eq_codeIn A ch ▸ codeOf_lt hA ch
  intro c hc
  rcases List.mem_append.mp hc with hc | hc
  · exact hcodes c hc
  · exact List.mem_singleton.mp hc ▸ lrcOf_lt hcodes

/-! ### The shape of PACK's output -/

/-- A PACK that is taken up gives the packed stream. -/
theorem pack_out0_bytes {A : Bytes} {w ow : Nat} {s t : State} (hpre : pre A w ow) (ht : taken (.pack A w ow) s)
    (h : exec (.pack A w ow) s = .next t) : t.out0.bytes = packed A w ow s.in0.bytes := by
  cases (exec_pack_of_taken hpre ht).symm.trans h
  rfl

/-- Settles O13: the output is the stream of the units cut into groups, whose last one is filled up with zeros. -/
theorem packOutputShape : Obligations.PackOutputShape := by
  intro A w ow s t hpre ht h
  obtain ⟨-, -, h1, h8, -⟩ := id hpre
  obtain ⟨-, hpad⟩ := groupBytes_bits h1 (packStream A w s.in0.bytes)
  have hstream := lowStream_groupBytes h1 h8 (packStream A w s.in0.bytes)
  rw [length_packStream] at hpad hstream
  rw [pack_out0_bytes hpre ht h]
  refine ⟨packed_length .., fun b hb => groupBytes_lt hb, ⟨_, hpad, hstream, rfl⟩, fun s' t' ht' hin h' => ?_⟩
  rw [pack_out0_bytes hpre ht' h', hin]

end Sys2Proof.PackerProofs

/-! PROOFS, part 13. The loopback of PACK through UNPACK by the reversal of each group (R104). -/

namespace Sys2Proof.PackerProofs
open Sys2Proof.Machine Sys2Proof.Spec Sys2Proof.Laws Sys2Proof.StateProofs Sys2Proof.MemoryProofs

/-! ### What UNPACK reads of reversed groups -/

/-- A reversed group read from the top is the group read from the bottom (R43, R44, R45). -/
theorem highStream_brev {ow : Nat} (h8 : ow ≤ 8) (P : Bytes) : highStream ow (brev ow P) = lowStream ow P := by
  have hbyte : ∀ p : Byte, highBits ow (BitVec.ofNat 8 (lsbFirst (highBits ow p))) = lowBits ow p := by
    intro p
    refine List.ext_getElem (by simp [lowBits]) fun i hi _ => ?_
    have hlt : i < ow := by simpa using hi
    have hback : ow - 1 - (ow - 1 - i) = i := by omega
    have htop : ow - 1 - i < ow := by omega
    simp only [highBits, lowBits, List.getElem_map, List.getElem_range, BitVec.getLsbD_ofNat, lsbFirst_testBit,
      htop.trans_le h8, decide_true, Bool.true_and]
    rw [List.getD_eq_getElem _ _ (by simpa using htop), List.getElem_map, List.getElem_range, hback]
  rw [highStream_eq_flatMap, brev, List.flatMap_map]
  exact List.flatMap_congr fun p _ => hbyte p

theorem lsbFirst_replicate_false (n : Nat) : lsbFirst (List.replicate n false) = 0 := by
  induction n with
  | zero => rfl
  | succ n ih => simp [List.replicate_succ, lsbFirst, ih]

/-- A unit that comes in as it was sent gives its code and no mark (R44, R62, R101). -/
theorem received_unitBits {w : Nat} (hw : w ≤ 6) {c : Code} (hc : c.toNat < 2 ^ w) :
    unitCode w (unitBits w c) = c ∧ unitMark (unitBits w c) = false := by
  have hcode : BitVec.ofNat 6 (lsbFirst ((List.range w).map c.getLsbD)) = c := by
    rw [lsbFirst_low_bits, Nat.mod_eq_of_lt hc, BitVec.ofNat_toNat, BitVec.setWidth_eq]
  constructor
  · rw [unitCode, unitBits, List.take_left' (by simp), hcode]
  · rw [unitBits, ← parityMark_eq_unitMark (by simpa using hw), hcode, parityMark, par_eq_popcount_even]
    simp

/-- A unit of padding gives code 0 and is marked (R44, R101). -/
theorem received_padding (w : Nat) :
    unitCode w (List.replicate (w + 1) false) = 0 ∧ unitMark (List.replicate (w + 1) false) = true := by
  constructor
  · rw [unitCode, List.take_replicate, lsbFirst_replicate_false]
    rfl
  · simp [unitMark, List.count_replicate]

/-- The number of whole units that the padding of PACK's output fills (R104). -/
def padUnits (A : Bytes) (w ow : Nat) (S : Bytes) : Nat := (packed A w ow S).length * ow / (w + 1) - (S.length + 1)

section
variable {A : Bytes} {w ow : Nat}

/-- The units that arrive: those that were sent, then those of the padding (R104). -/
theorem units_brev_packed (hpre : pre A w ow) (S : Bytes) :
    units w (highStream ow (brev ow (packed A w ow S))) =
      (sentCodes A S).map (unitBits w) ++ List.replicate (padUnits A w ow S) (List.replicate (w + 1) false) := by
  obtain ⟨-, -, h1, h8, -⟩ := hpre
  have hbits := (groupBytes_bits h1 (packStream A w S)).1
  have hstream := lowStream_groupBytes h1 h8 (packStream A w S)
  rw [length_packStream, ← packed_eq_groupBytes] at hbits hstream
  obtain ⟨pad, hpad⟩ := Nat.exists_eq_add_of_le hbits
  have hunits : padUnits A w ow S = pad / (w + 1) := by
    rw [padUnits, hpad, Nat.mul_comm, Nat.mul_add_div (Nat.succ_pos w), Nat.add_sub_cancel_left]
  have hzeros : List.replicate pad false =
      (List.replicate (pad / (w + 1)) (List.replicate (w + 1) false)).flatten ++ List.replicate (pad % (w + 1)) false := by
    rw [List.flatten_replicate_replicate, List.replicate_append_replicate, Nat.div_add_mod']
  rw [highStream_brev h8, hstream, hpad, Nat.add_sub_cancel_left, hzeros, packStream_eq_flatten, ← List.append_assoc,
    ← List.flatten_append, hunits]
  refine units_flatten_append (fun u hu => ?_) (by simpa using Nat.mod_lt pad (Nat.succ_pos w))
  rcases List.mem_append.mp hu with hu | hu
  · obtain ⟨c, -, rfl⟩ := List.mem_map.mp hu
    exact unitBits_length w c
  · rw [List.eq_of_mem_replicate hu, List.length_replicate]

/-- UNPACK decodes the codes that were sent, then zeros (R104). -/
theorem unpackCodes_brev_packed (hpre : pre A w ow) (S : Bytes) :
    unpackCodes w ow (brev ow (packed A w ow S)) = sentCodes A S ++ List.replicate (padUnits A w ow S) 0 := by
  obtain ⟨-, hw, -, -, hA⟩ := id hpre
  have hsent : (sentCodes A S).map (unitCode w ∘ unitBits w) = (sentCodes A S).map id :=
    List.map_congr_left fun c hc => (received_unitBits hw (sentCodes_lt hA S c hc)).1
  rw [unpackCodes, units_brev_packed hpre, List.map_append, List.map_map, hsent, List.map_id, List.map_replicate,
    (received_padding w).1]

/-- UNPACK marks no unit that was sent and every unit of the padding (R104). -/
theorem unpackMarks_brev_packed (hpre : pre A w ow) (S : Bytes) :
    unpackMarks w ow (brev ow (packed A w ow S)) =
      List.replicate (S.length + 1) false ++ List.replicate (padUnits A w ow S) true := by
  obtain ⟨-, hw, -, -, hA⟩ := id hpre
  have hsent : (sentCodes A S).map (unitMark ∘ unitBits w) = (sentCodes A S).map fun _ => false :=
    List.map_congr_left fun c hc => (received_unitBits hw (sentCodes_lt hA S c hc)).2
  rw [unpackMarks, units_brev_packed hpre, List.map_append, List.map_map, hsent, List.map_const', sentCodes_length,
    List.map_replicate, (received_padding w).2]

/-- The padding fills whole units after the `m + 1` that were sent (R104). -/
theorem received_count (hpre : pre A w ow) (S : Bytes) :
    (packed A w ow S).length * ow / (w + 1) = S.length + 1 + padUnits A w ow S := by
  have hbits := (groupBytes_bits hpre.2.2.1 (packStream A w S)).1
  rw [length_packStream, ← packed_eq_groupBytes] at hbits
  exact (Nat.add_sub_cancel' ((Nat.le_div_iff_mul_le (Nat.succ_pos w)).mpr hbits)).symm

/-- UNPACK's symbols, marks and last nonzero position by the units of the stream (R99, R100). -/
theorem unpackRun_fields (hpre : pre A w ow) (P : Bytes) :
    (unpackRun A w ow P).sym = (unpackCodes w ow P).map (fun c => A.getD c.toNat 0) ∧
    (unpackRun A w ow P).mrk = unpackMarks w ow P ∧
    keptLength (unpackRun A w ow P).lastnz = keptLen (unpackCodes w ow P) := by
  obtain ⟨rest, h, -⟩ := unpackRun_decoded hpre P
  exact ⟨h.sym, h.mrk, h.lastnz⟩

end

/-! ### Truncation -/

/-- The kept codes are those before the zeros at the end (R100). -/
theorem take_keptLen (cs : List Code) : cs.take (keptLen cs) = (cs.reverse.dropWhile (· == 0)).reverse := by
  have hprefix := (List.dropWhile_suffix (l := cs.reverse) (· == 0)).reverse
  rw [List.reverse_reverse] at hprefix
  rw [keptLen, ← List.length_reverse]
  exact (List.prefix_iff_eq_take.mp hprefix).symm

theorem keptLen_le (cs : List Code) : keptLen cs ≤ cs.length := by
  simpa [keptLen] using (List.dropWhile_suffix (l := cs.reverse) (· == 0)).length_le

/-- Zeros at the end are cut, however many there are (R100). -/
theorem keptLen_append_zeros (cs : List Code) (n : Nat) : keptLen (cs ++ List.replicate n 0) = keptLen cs := by
  induction n with
  | zero => simp
  | succ n ih => rw [List.replicate_succ', ← List.append_assoc, keptLen_append, if_pos rfl, ih]

theorem lrcOf_zeros (n : Nat) : lrcOf (List.replicate n 0) = 0 := by
  induction n with
  | zero => rfl
  | succ n ih => rw [List.replicate_succ, lrcOf_cons, ih]; rfl

/-! ### The two special cases -/

/-- The character of a code that was looked up (R87). -/
theorem getD_codeIn {A : Bytes} (hlen : A.length ≤ 64) {ch : Byte} (hch : ch ∈ A) : A.getD (codeIn A ch).toNat 0 = ch := by
  have hidx := List.idxOf_lt_length_of_mem hch
  rw [codeIn, if_pos hch, BitVec.toNat_ofNat, Nat.mod_eq_of_lt (hidx.trans_le hlen), List.getD_eq_getElem _ _ hidx,
    List.getElem_idxOf]

/-- Characters of the alphabet are decoded from their codes (R104). -/
theorem map_getD_codes {A S : Bytes} (hlen : A.length ≤ 64) (hS : ∀ ch ∈ S, ch ∈ A) :
    (codes A S).map (fun c => A.getD c.toNat 0) = S := by
  have hback : S.map ((fun c => A.getD c.toNat 0) ∘ codeIn A) = S.map id :=
    List.map_congr_left fun ch hch => getD_codeIn hlen (hS ch hch)
  rw [codes, List.map_map, hback, List.map_id]

/-- A character of the alphabet has code 0 exactly when it is the first entry (R87). -/
theorem codeIn_beq_zero {A : Bytes} (hlen : A.length ≤ 64) {ch : Byte} (hch : ch ∈ A) :
    (codeIn A ch == 0) = (ch == A.getD 0 0) := by
  rw [Bool.eq_iff_iff, beq_iff_eq, beq_iff_eq]
  constructor
  · intro h
    rw [← getD_codeIn hlen hch, h]
    rfl
  · rintro rfl
    cases A with
    | nil => cases hch
    | cons a A => simp [codeIn]

/-- Leading zero codes are leading copies of the first entry (R104). -/
theorem dropWhile_codes {A S : Bytes} (hlen : A.length ≤ 64) (hS : ∀ ch ∈ S, ch ∈ A) :
    ((codes A S).dropWhile (· == 0)).map (fun c => A.getD c.toNat 0) = S.dropWhile (· == A.getD 0 0) := by
  induction S with
  | nil => rfl
  | cons ch S ih =>
    obtain ⟨hch, hrest⟩ := List.forall_mem_cons.mp hS
    have hcodes : codes A (ch :: S) = codeIn A ch :: codes A S := rfl
    rw [hcodes, List.dropWhile_cons, List.dropWhile_cons, codeIn_beq_zero hlen hch]
    split
    · exact ih hrest
    · rw [← hcodes, map_getD_codes hlen hS]

/-- Cutting zero codes at the end cuts copies of the first entry (R104). -/
theorem kept_codes_chars {A S : Bytes} (hlen : A.length ≤ 64) (hS : ∀ ch ∈ S, ch ∈ A) :
    ((codes A S).take (keptLen (codes A S))).map (fun c => A.getD c.toNat 0) =
      (S.reverse.dropWhile (· == A.getD 0 0)).reverse := by
  have hrev : (codes A S).reverse = codes A S.reverse := List.map_reverse.symm
  rw [take_keptLen, List.map_reverse, hrev, dropWhile_codes hlen fun ch hch => hS ch (List.mem_reverse.mp hch)]

/-! ### The loopback -/

/-- An UNPACK that is taken up, in its result buffer (R97). -/
theorem exec_unpack_out0 {A : Bytes} {w ow : Nat} {s : State} (hpre : pre A w ow) (ht : taken (.unpack A w ow) s) :
    ∃ t, exec (.unpack A w ow) s = .next t ∧ t.out0 = unpacked A w ow s.in0.bytes :=
  ⟨_, exec_unpack_of_taken hpre ht, rfl⟩

/-- Settles O16: the stream of the reversed groups is that of the units that were sent, then padding. -/
theorem loopbackThroughGroupReversal : Obligations.LoopbackThroughGroupReversal := by
  refine ⟨fun A w ow s t s' hpre ht h ht' hin => ?_, by decide, by decide, by decide⟩
  rw [pack_out0_bytes hpre ht h] at hin ⊢
  generalize s.in0.bytes = S at hin ⊢
  obtain ⟨-, hw, -, -, hA⟩ := id hpre
  have hlen : A.length ≤ 64 := hA ▸ Nat.pow_le_pow_right (n := 2) (by omega) hw
  obtain ⟨hsym, hmrk, -⟩ := unpackRun_fields hpre (brev ow (packed A w ow S))
  obtain ⟨t', hexec, hout⟩ := exec_unpack_out0 hpre ht'
  have hcodes := unpackCodes_brev_packed hpre S
  have hkept := keptLen_append_zeros (sentCodes A S) (padUnits A w ow S)
  have hle : keptLen (sentCodes A S) ≤ S.length + 1 := sentCodes_length A S ▸ keptLen_le _
  have hbytes : t'.out0.bytes = ((sentCodes A S).take (keptLen (sentCodes A S))).map fun c => A.getD c.toNat 0 := by
    rw [hout, hin, unpacked, hcodes, hkept, List.take_append_of_le_length (by simpa using hle)]
  refine ⟨codes A S, lrcOf (codes A S), padUnits A w ow S, _, t', rfl, rfl, rfl, rfl, ?_, ?_, hexec, ?_, ?_, hbytes, ?_,
    fun hS _ => ⟨fun hL => ?_, fun hL => ?_⟩⟩
  · rw [hsym, hcodes, List.map_append, List.map_replicate]
    rfl
  · rw [hmrk, unpackMarks_brev_packed hpre]
  · rw [hout, hin, ← received_count hpre S]
    simp [unpacked, brev]
  · rw [hout, hin, unpacked, hcodes, lrcOf_append_list, lrcOf_sentCodes, lrcOf_zeros]
    rfl
  · rw [hout, hin]
    show (unpackMarks w ow _).take (keptLen (unpackCodes w ow _)) = List.replicate (keptLen (sentCodes A S)) false
    rw [hcodes, hkept, unpackMarks_brev_packed hpre, List.take_append_of_le_length (by simpa using hle),
      List.take_replicate, Nat.min_eq_left hle]
  · rw [hbytes, sentCodes, keptLen_append, if_neg hL, List.take_of_length_le (by simp), List.map_append,
      map_getD_codes hlen hS]
    rfl
  · rw [hbytes, sentCodes, keptLen_append, if_pos hL, List.take_append_of_le_length (keptLen_le _),
      kept_codes_chars hlen hS]

end Sys2Proof.PackerProofs

/-! PROOFS, part 14. Changes of a loopback stream: one flipped bit and its parity mark (R105), and what the LRC sees (R106). -/

namespace Sys2Proof.PackerProofs
open Sys2Proof.Machine Sys2Proof.Spec Sys2Proof.Laws Sys2Proof.StateProofs Sys2Proof.MemoryProofs

/-! ### One changed entry of a list -/

theorem modify_append_of_ge {α : Type} {f : α → α} {n : Nat} {l : List α} (h : l.length ≤ n) (m : List α) :
    (l ++ m).modify n f = l ++ m.modify (n - l.length) f := by
  induction l generalizing n with
  | nil => rfl
  | cons a l ih =>
    obtain ⟨n, rfl⟩ := Nat.exists_eq_succ_of_ne_zero (show n ≠ 0 by rintro rfl; cases h)
    simp [ih (Nat.le_of_succ_le_succ h)]

theorem modify_append_of_lt {α : Type} {f : α → α} {n : Nat} {l : List α} (h : n < l.length) (m : List α) :
    (l ++ m).modify n f = l.modify n f ++ m := by
  obtain ⟨l₁, a, l₂, rfl, rfl, hl⟩ := List.exists_of_modify f h
  rw [hl, List.append_assoc, List.append_assoc, modify_append_of_ge le_rfl, Nat.sub_self]
  rfl

theorem map_modify {α β : Type} {f : α → β} {g : α → α} {g' : β → β} {l : List α} (h : ∀ a ∈ l, f (g a) = g' (f a))
    (n : Nat) : (l.modify n g).map f = (l.map f).modify n g' := by
  induction l generalizing n with
  | nil => simp
  | cons a l ih =>
    obtain ⟨ha, hl⟩ := List.forall_mem_cons.mp h
    cases n with
    | zero => simp [ha]
    | succ n => simp [ih hl]

/-! ### One flipped bit of a stream -/

theorem getD_modify_not {l : List Bool} {j : Nat} (hj : j < l.length) (i : Nat) :
    (l.modify j (!·)).getD i false = (l.getD i false ^^ decide (j = i)) := by
  rw [List.getD_eq_getElem?_getD, List.getD_eq_getElem?_getD, List.getElem?_modify]
  by_cases h : j = i
  · subst h
    simp [hj]
  · simp [h]

/-- A flipped bit of a byte's group is a flipped bit of its stream (R44). -/
theorem highBits_flip {ow j : Nat} (h8 : ow ≤ 8) (hj : j < ow) (p : Byte) :
    highBits ow (p ^^^ BitVec.ofNat 8 (2 ^ (ow - 1 - j))) = (highBits ow p).modify j (!·) := by
  refine List.ext_getElem (by simp) fun i hi _ => ?_
  have hi' : i < ow := by simpa using hi
  have hsame : ow - 1 - j = ow - 1 - i ↔ j = i := by omega
  have htop : ow - 1 - i < 8 := by omega
  simp only [highBits, List.getElem_modify, List.getElem_map, List.getElem_range, BitVec.getLsbD_xor,
    BitVec.getLsbD_ofNat, Nat.testBit_two_pow, htop, decide_true, Bool.true_and, hsame]
  split
  · next h => simp [h]
  · next h => simp [h]

/-- `flipBit` flips the bit of the stream it names (R44, R105). -/
theorem highStream_flipBit {ow : Nat} (h1 : 1 ≤ ow) (h8 : ow ≤ 8) (n : Nat) (Q : Bytes) :
    highStream ow (flipBit ow n Q) = (highStream ow Q).modify n (!·) := by
  induction Q generalizing n with
  | nil => simp [flipBit, highStream]
  | cons p Q ih =>
    simp only [highStream_eq_flatMap, List.flatMap_cons] at ih ⊢
    rcases Nat.lt_or_ge n ow with hlt | hge
    · have hflip : flipBit ow n (p :: Q) = (p ^^^ BitVec.ofNat 8 (2 ^ (ow - 1 - n))) :: Q := by
        simp [flipBit, Nat.div_eq_of_lt hlt, Nat.mod_eq_of_lt hlt]
      rw [hflip, List.flatMap_cons, highBits_flip h8 hlt, modify_append_of_lt (by simpa using hlt)]
    · have hflip : flipBit ow n (p :: Q) = p :: flipBit ow (n - ow) Q := by
        rw [flipBit, Nat.div_eq_sub_div h1 hge, Nat.mod_eq_sub_mod hge, List.modify_succ_cons, flipBit]
      rw [hflip, List.flatMap_cons, ih, modify_append_of_ge (by simpa using hge), highBits_length]

theorem getElem?_units (w : Nat) (l : List Bool) (i : Nat) :
    (units w l)[i]? = if i < l.length / (w + 1) then some ((l.drop (i * (w + 1))).take (w + 1)) else none := by
  rw [units, List.getElem?_map]
  split
  · next h => rw [List.getElem?_range h, Option.map_some]
  · next h => rw [List.getElem?_eq_none (by simpa using h), Option.map_none]

theorem length_of_mem_units {w : Nat} {l u : List Bool} (hu : u ∈ units w l) : u.length = w + 1 := by
  obtain ⟨i, hi, rfl⟩ := List.mem_map.mp hu
  have hfit : (i + 1) * (w + 1) ≤ l.length :=
    (Nat.le_div_iff_mul_le (Nat.succ_pos w)).mp (Nat.succ_le_of_lt (List.mem_range.mp hi))
  rw [Nat.succ_mul] at hfit
  rw [List.length_take, List.length_drop]
  omega

/-- A flipped bit of a stream is a flipped bit of one unit (R105). -/
theorem units_modify (w n : Nat) (l : List Bool) :
    units w (l.modify n (!·)) = (units w l).modify (n / (w + 1)) fun u => u.modify (n % (w + 1)) (!·) := by
  refine List.ext_getElem? fun i => ?_
  rw [List.getElem?_modify, getElem?_units, getElem?_units, List.length_modify]
  split
  · rw [Option.map_eq_map, Option.map_some, Option.some_inj]
    rcases Nat.lt_trichotomy (n / (w + 1)) i with hlt | rfl | hgt
    · have hn : n < i * (w + 1) := (Nat.div_lt_iff_lt_mul (Nat.succ_pos w)).mp hlt
      rw [if_neg hlt.ne, List.drop_modify_of_lt _ _ _ _ hn]
    · have hn : n - n / (w + 1) * (w + 1) = n % (w + 1) := (Nat.mod_eq_sub_div_mul).symm
      rw [if_pos rfl, List.drop_modify_of_ge _ _ _ _ (Nat.div_mul_le_self n (w + 1)), List.take_modify, hn]
    · have hn : (i + 1) * (w + 1) ≤ n := (Nat.le_div_iff_mul_le (Nat.succ_pos w)).mp hgt
      rw [Nat.succ_mul] at hn
      rw [if_neg hgt.ne', List.drop_modify_of_ge _ _ _ _ (by omega), List.take_modify, List.modify_eq_self]
      rw [List.length_take]
      omega
  · rfl

/-! ### One flipped bit of a unit -/

/-- A flipped bit changes the number of 1 bits by one, so the mark (R101, R105). -/
theorem unitMark_modify {u : List Bool} {j : Nat} (hj : j < u.length) : unitMark (u.modify j (!·)) = !unitMark u := by
  obtain ⟨l₁, b, l₂, rfl, -, hmod⟩ := List.exists_of_modify (!·) hj
  rw [hmod, unitMark, unitMark, List.count_append, List.count_append, List.count_cons, List.count_cons]
  have flip_parity : ∀ k : Nat, ((k + 1) % 2 == 0) = !(k % 2 == 0) := by
    intro k
    rw [Bool.eq_iff_iff]
    simp
    omega
  cases b with
  | true => simpa [Nat.add_assoc] using congrArg (!·) (flip_parity (l₁.count true + l₂.count true)).symm
  | false => simpa [Nat.add_assoc] using flip_parity (l₁.count true + l₂.count true)

/-- What a flipped bit `j` of a unit changes in its code: a code bit, or nothing if it is the parity bit (R62, R106). -/
def flippedCode (w j : Nat) : Code := if j < w then BitVec.ofNat 6 (2 ^ j) else 0

theorem flippedCode_ne_zero {w j : Nat} (hw : w ≤ 6) : (flippedCode w j != 0) = decide (j < w) := by
  rw [flippedCode]
  split
  · next h =>
    have hpow : 2 ^ j < 2 ^ 6 := Nat.pow_lt_pow_right (by omega) (by omega)
    have hne : BitVec.ofNat 6 (2 ^ j) ≠ 0 := fun he => by
      have := congrArg BitVec.toNat he
      rw [BitVec.toNat_ofNat, Nat.mod_eq_of_lt hpow] at this
      exact absurd this (by simp)
    simpa [h] using hne
  · next h => simp [h]

theorem unitCode_modify {w j : Nat} {u : List Bool} (hu : u.length = w + 1) :
    unitCode w (u.modify j (!·)) = unitCode w u ^^^ flippedCode w j := by
  have hlen : (u.take w).length = w := by simp [hu]
  rw [unitCode, unitCode, List.take_modify, flippedCode]
  split
  · next h =>
    refine BitVec.eq_of_getLsbD_eq fun i hi => ?_
    rw [BitVec.getLsbD_xor, BitVec.getLsbD_ofNat, BitVec.getLsbD_ofNat, BitVec.getLsbD_ofNat, lsbFirst_testBit,
      lsbFirst_testBit, getD_modify_not (hlen.symm ▸ h), Nat.testBit_two_pow, decide_eq_true hi]
    simp
  · next h =>
    rw [List.modify_eq_self (by omega)]
    exact BitVec.xor_zero.symm

section
variable {A : Bytes} {w ow : Nat}

/-- A flipped bit changes the mark of its unit alone (R105). -/
theorem unpackMarks_flipBit (hpre : pre A w ow) (n : Nat) (Q : Bytes) :
    unpackMarks w ow (flipBit ow n Q) = (unpackMarks w ow Q).modify (n / (w + 1)) (!·) := by
  obtain ⟨-, -, h1, h8, -⟩ := hpre
  rw [unpackMarks, highStream_flipBit h1 h8, units_modify, unpackMarks]
  refine map_modify (fun u hu => unitMark_modify ?_) _
  rw [length_of_mem_units hu]
  exact Nat.mod_lt n (Nat.succ_pos w)

/-- A flipped bit changes the code of its unit alone (R106). -/
theorem unpackCodes_flipBit (hpre : pre A w ow) (n : Nat) (Q : Bytes) :
    unpackCodes w ow (flipBit ow n Q) =
      (unpackCodes w ow Q).modify (n / (w + 1)) (· ^^^ flippedCode w (n % (w + 1))) := by
  obtain ⟨-, -, h1, h8, -⟩ := hpre
  rw [unpackCodes, highStream_flipBit h1 h8, units_modify, unpackCodes]
  exact map_modify (fun u hu => unitCode_modify (length_of_mem_units hu)) _

end

/-- Settles O17: the flipped bit turns the mark of its unit, and the kept positions reach to the last nonzero code. -/
theorem singleBitFlipIsMarked : Obligations.SingleBitFlipIsMarked := by
  intro A w ow s t s' n hpre ht h hn ht' hin
  rw [pack_out0_bytes hpre ht h] at hin ⊢
  generalize s.in0.bytes = S at hn hin ⊢
  obtain ⟨-, hmrk, hlast⟩ := unpackRun_fields hpre (flipBit ow n (brev ow (packed A w ow S)))
  obtain ⟨t', hexec, hout⟩ := exec_unpack_out0 hpre ht'
  have hunit : n / (w + 1) < S.length + 1 := (Nat.div_lt_iff_lt_mul (Nat.succ_pos w)).mpr hn
  have hmarks : ∀ i, i ≤ S.length →
      (unpackMarks w ow (flipBit ow n (brev ow (packed A w ow S))))[i]? = some (decide (n / (w + 1) = i)) := by
    intro i hi
    rw [unpackMarks_flipBit hpre, unpackMarks_brev_packed hpre, List.getElem?_modify,
      List.getElem?_append_left (by simpa using Nat.lt_succ_of_le hi), List.getElem?_replicate_of_lt (Nat.lt_succ_of_le hi)]
    by_cases h : n / (w + 1) = i <;> simp [h]
  have hflipped := hmarks _ (Nat.le_of_lt_succ hunit)
  rw [decide_eq_true rfl] at hflipped
  refine ⟨_, t', rfl, hexec, hmrk ▸ hflipped, fun i hi hne => ?_, fun j hj hle => ?_⟩
  · rw [hmrk, hmarks i hi, decide_eq_false (Ne.symm hne)]
  · rw [hout, hin]
    show ((unpackMarks w ow _).take (keptLen (unpackCodes w ow _)))[_]? = some true
    have hkept : n / (w + 1) < keptLength (some j) := Nat.lt_succ_of_le hle
    rw [← hlast, hj, List.getElem?_take_of_lt hkept, hflipped]

/-! ### What the LRC sees -/

/-- A changed code changes the LRC by as much (R106). -/
theorem lrcOf_modify {cs : List Code} {q : Nat} (hq : q < cs.length) (d : Code) :
    lrcOf (cs.modify q (· ^^^ d)) = lrcOf cs ^^^ d := by
  obtain ⟨l₁, c, l₂, rfl, -, hmod⟩ := List.exists_of_modify (· ^^^ d) hq
  rw [hmod, lrcOf_append_list, lrcOf_append_list, lrcOf_cons, lrcOf_cons]
  ac_rfl

/-- The number of units whose bit `j` differs. -/
def columnChanges (j : Nat) (cs ds : List Code) : Nat := (cs.zip ds).countP fun p => p.1.getLsbD j != p.2.getLsbD j

theorem columnChanges_cons (j : Nat) (c d : Code) (cs ds : List Code) :
    columnChanges j (c :: cs) (d :: ds) = columnChanges j cs ds + (c.getLsbD j ^^ d.getLsbD j).toNat := by
  rw [columnChanges, List.zip_cons_cons, List.countP_cons, columnChanges]
  cases c.getLsbD j <;> cases d.getLsbD j <;> rfl

theorem odd_add_toNat (n : Nat) (b : Bool) : decide ((n + b.toNat) % 2 = 1) = (decide (n % 2 = 1) ^^ b) := by
  rcases Nat.mod_two_eq_zero_or_one n with h | h <;> cases b <;> simp [Nat.add_mod, h]

/-- Bit `j` of the two LRCs differs exactly when an odd number of units differs there (R106). -/
theorem columnChanges_odd (j : Nat) {cs ds : List Code} (hlen : cs.length = ds.length) :
    decide (columnChanges j cs ds % 2 = 1) = ((lrcOf cs).getLsbD j ^^ (lrcOf ds).getLsbD j) := by
  induction cs generalizing ds with
  | nil =>
    obtain rfl := List.length_eq_zero_iff.mp hlen.symm
    simp [columnChanges]
  | cons c cs ih =>
    cases ds with
    | nil => cases hlen
    | cons d ds =>
      rw [columnChanges_cons, odd_add_toNat, ih (Nat.succ.inj hlen), lrcOf_cons, lrcOf_cons, BitVec.getLsbD_xor,
        BitVec.getLsbD_xor]
      simp only [Bool.xor_assoc, Bool.xor_comm, Bool.xor_left_comm]

section
variable {A : Bytes} {w ow : Nat}

theorem unpackCodes_length (w ow : Nat) (P : Bytes) : (unpackCodes w ow P).length = P.length * ow / (w + 1) := by
  simp [unpackCodes, units, highStream_eq_flatMap, List.length_flatMap]

/-- UNPACK's LRC is within the code width (R17). -/
theorem lrcOf_unpackCodes_lt (hpre : pre A w ow) (P : Bytes) : (lrcOf (unpackCodes w ow P)).toNat < 2 ^ w := by
  obtain ⟨rest, h, -⟩ := unpackRun_decoded hpre P
  exact h.lrc ▸ (unpackRun_bounds hpre P).1.lrc_lt

/-- What was sent makes UNPACK's LRC zero (R104). -/
theorem lrcOf_loopback (hpre : pre A w ow) (S : Bytes) : lrcOf (unpackCodes w ow (brev ow (packed A w ow S))) = 0 := by
  rw [unpackCodes_brev_packed hpre, lrcOf_append_list, lrcOf_sentCodes, lrcOf_zeros]
  rfl

end

/-- A code of `w` bits is zero when its low `w` bits are. -/
theorem eq_zero_iff_getLsbD {w : Nat} {c : Code} (hc : c.toNat < 2 ^ w) : c = 0 ↔ ∀ j, j < w → c.getLsbD j = false := by
  refine ⟨fun h => by simp [h], fun h => BitVec.eq_of_getLsbD_eq fun j _ => ?_⟩
  rcases Nat.lt_or_ge j w with hj | hj
  · simpa using h j hj
  · rw [BitVec.getLsbD, Nat.testBit_lt_two_pow (hc.trans_le (Nat.pow_le_pow_right (by omega) hj))]
    simp

/-- Settles O18: a flipped bit changes the LRC by the flipped code bit, other changes by the parity of each column. -/
theorem lrcDetectsColumnChanges : Obligations.LrcDetectsColumnChanges := by
  intro A w ow s t hpre ht h
  rw [pack_out0_bytes hpre ht h]
  generalize s.in0.bytes = S
  have hzero := lrcOf_loopback hpre S
  refine ⟨fun n s' hn ht' hin => ?_, fun s' ht' hlen => ?_⟩
  · obtain ⟨t', hexec, hout⟩ := exec_unpack_out0 hpre ht'
    have hunit : n / (w + 1) < (unpackCodes w ow (brev ow (packed A w ow S))).length := by
      rw [unpackCodes_brev_packed hpre, List.length_append, sentCodes_length]
      exact Nat.lt_add_right _ ((Nat.div_lt_iff_lt_mul (Nat.succ_pos w)).mpr hn)
    refine ⟨t', hexec, ?_⟩
    rw [hout, hin]
    show (lrcOf (unpackCodes w ow _) != 0) = _
    rw [unpackCodes_flipBit hpre, lrcOf_modify hunit, hzero, ← flippedCode_ne_zero hpre.2.1]
    simp
  · obtain ⟨t', hexec, hout⟩ := exec_unpack_out0 hpre ht'
    have hsame : (unpackCodes w ow (brev ow (packed A w ow S))).length = (unpackCodes w ow s'.in0.bytes).length := by
      rw [unpackCodes_length, unpackCodes_length, hlen]
      simp [brev]
    refine ⟨t', hexec, ?_⟩
    rw [hout]
    show (lrcOf (unpackCodes w ow _) != 0) = false ↔ ∀ j, j < w → columnChanges j _ _ % 2 = 0
    rw [bne_eq_false_iff_eq, eq_zero_iff_getLsbD (lrcOf_unpackCodes_lt hpre _)]
    refine forall₂_congr fun j _ => ?_
    have hcolumn := columnChanges_odd j hsame
    have hbit : (0 : Code).getLsbD j = false := BitVec.getLsbD_zero
    rw [hzero, hbit, Bool.false_xor] at hcolumn
    rw [← hcolumn, decide_eq_false_iff_not]
    exact Nat.mod_two_ne_one

end Sys2Proof.PackerProofs

/-! PROOFS, part 15. The ISO datablock codec as operations (R111 to R120): which of the six checks ends ISODEC and where, and
what it decodes from a block of R69. -/

namespace Sys2Proof.IsoCodecProofs
open Sys2Proof.Machine Sys2Proof.Spec Sys2Proof.Laws Sys2Proof.StateProofs Sys2Proof.EncodingProofs

/-! ### The operations -/

/-- A datablock is ten bytes longer than its strips together (R69). -/
theorem isoBlock_length (c : Config) (s1 s2 s3 : Bytes) :
    (isoBlock c s1 s2 s3).length = 10 + s1.length + s2.length + s3.length := by
  rw [← isoEncode_eq_isoBlock, isoEncode_length]

section
variable {s : State}

/-- An ISOENC that is taken up (R113). -/
theorem exec_isoenc_of_taken (ht : taken .isoenc s) :
    exec .isoenc s = .next { ended 0x03 s with
      out0 := OutBuf.ofBytes (isoBlock s.cfg s.in0.bytes s.in1.bytes s.in2.bytes) } := by
  obtain ⟨⟨hopen, hidle⟩, hfits⟩ := ht
  show execIsoenc s = _
  rw [execIsoenc, start_of_accepted _ hopen hidle (show isoencFits s = true from (fits_iff ..).mpr hfits),
    isoEncode_eq_isoBlock]
  rfl

/-- ISODEC fails where its decoder does (R117). -/
theorem exec_isodec_of_error {offset : Nat} (hs : ready s) (h : isoDecode s.cfg s.in0.bytes = .error offset) :
    exec .isodec s = .next (framed 0x04 offset s.in0.bytes s) := by
  rw [exec_isodec_of_ready hs, isoDecodeTo, accept_cfg, h]
  rfl

theorem ofStrip_eq_strip (o : Option Bytes) : OutBuf.ofStrip o = strip o := by
  cases o <;> rfl

/-- ISODEC gives the strips its decoder does (R115). -/
theorem exec_isodec_of_ok {o1 o2 o3 : Option Bytes} (hs : ready s)
    (h : isoDecode s.cfg s.in0.bytes = .ok (o1, o2, o3)) :
    exec .isodec s = .next { ended 0x04 s with out0 := strip o1, out1 := strip o2, out2 := strip o3 } := by
  rw [exec_isodec_of_ready hs, isoDecodeTo, accept_cfg, h]
  simp only [ofStrip_eq_strip]
  rfl

end

/-! ### The header check -/

/-- The header check gives the first index whose byte is wrong (R116, check 2). -/
theorem firstMismatch_eq_some {B H : Bytes} {i j : Nat} (hj : j < H.length)
    (hbefore : ∀ k, k < j → B[i + k]? = H[k]?) (hat : B[i + j]? ≠ H[j]?) : firstMismatch B i H = some (i + j) := by
  induction H generalizing i j with
  | nil => simp at hj
  | cons h H ih =>
    unfold firstMismatch
    cases j with
    | zero => exact if_neg (by simpa using hat)
    | succ j =>
      have hshift : ∀ k, i + (k + 1) = i + 1 + k := by omega
      rw [if_pos (by simpa using hbefore 0 (by omega)), hshift j]
      refine ih (by simpa using hj) (fun k hk => ?_) ?_
      · rw [← hshift, hbefore (k + 1) (by omega), List.getElem?_cons_succ]
      · rwa [← hshift, ← List.getElem?_cons_succ (a := h)]

/-- Two sequences with the same first `n` entries have the same entry at each index below `n`. -/
theorem getElem?_eq_of_take_eq {B H : Bytes} {n k : Nat} (h : B.take n = H.take n) (hk : k < n) : B[k]? = H[k]? := by
  rw [← List.getElem?_take_of_lt hk, h, List.getElem?_take_of_lt hk]

/-! ### The six checks of the decoder (R116) -/

section
variable {c : Config} {B : Bytes}

/-- Check 1 fails. -/
theorem isoDecode_of_short (hn : B.length < 10) : isoDecode c B = .error B.length := by
  simp [isoDecode, hn]

/-- Check 2 fails. -/
theorem isoDecode_of_header {i : Nat} (hn : 10 ≤ B.length) (hi : i < 4)
    (hbefore : B.take i = [c.esc, c.chS, c.esc, 0x01].take i) (hat : B[i]? ≠ [c.esc, c.chS, c.esc, 0x01][i]?) :
    isoDecode c B = .error i := by
  have hmismatch : firstMismatch B 0 [c.esc, c.chS, c.esc, 0x01] = some i := by
    have := firstMismatch_eq_some (B := B) (i := 0) (H := [c.esc, c.chS, c.esc, 0x01]) hi
      (fun k hk => by simpa using getElem?_eq_of_take_eq hbefore hk) (by simpa using hat)
    simpa using this
  simp only [isoDecode, if_neg (Nat.not_lt.mpr hn), hmismatch]

/-- Checks 1 and 2 pass: the trailer decides, then the markers. -/
theorem isoDecode_of_take_four (hn : 10 ≤ B.length) (hheader : B.take 4 = [c.esc, c.chS, c.esc, 0x01]) :
    isoDecode c B =
      if B[B.length - 2]? ≠ some c.chQM then .error (B.length - 2)
      else if B[B.length - 1]? ≠ some c.fs then .error (B.length - 1)
      else isoStrips c B := by
  have hmatch : firstMismatch B 0 [c.esc, c.chS, c.esc, 0x01] = none :=
    (firstMismatch_eq_none_iff ..).mpr fun j hj => by
      rw [Nat.zero_add]
      exact getElem?_eq_of_take_eq (n := 4) hheader hj
  simp only [isoDecode, if_neg (Nat.not_lt.mpr hn), hmatch]

/-- Check 5 fails. -/
theorem isoStrips_of_no_first (h1 : ∀ i, 4 ≤ i → i + 1 < B.length - 2 → ¬ markerAt c B 0x02 i) :
    isoStrips c B = .error 4 := by
  rw [isoStrips, (find2_eq_none_iff ..).mpr h1]

variable {e1 e2 : Nat}

/-- Check 6 fails. -/
theorem isoStrips_of_no_second (h1 : find2 B c.esc 0x02 4 (B.length - 2) = some e1)
    (h2 : ∀ i, e1 + 2 ≤ i → i + 1 < B.length - 2 → ¬ markerAt c B 0x03 i) : isoStrips c B = .error (e1 + 2) := by
  simp only [isoStrips, h1, (find2_eq_none_iff ..).mpr h2]

/-- All checks pass. -/
theorem isoStrips_of_markers (h1 : find2 B c.esc 0x02 4 (B.length - 2) = some e1)
    (h2 : find2 B c.esc 0x03 (e1 + 2) (B.length - 2) = some e2) :
    isoStrips c B = .ok (optSlice B 4 e1, optSlice B (e1 + 2) e2, optSlice B (e2 + 2) (B.length - 2)) := by
  simp only [isoStrips, h1, h2]

/-- A decoded segment is `opt` of the bytes between its bounds (R116, R120). -/
theorem optSlice_eq_opt {a b : Nat} (hab : a ≤ b) (hb : b ≤ B.length) : optSlice B a b = opt ((B.take b).drop a) := by
  have hempty : (B.take b).drop a = [] ↔ b = a := by
    rw [List.drop_eq_nil_iff, List.length_take_of_le hb]
    omega
  simp only [optSlice, opt, hempty, slice, ← List.drop_take]

end

/-- Settles O19: the encoder's block is the datablock of R69. -/
theorem isoencResult : Obligations.IsoencResult := by
  intro s ht
  exact ⟨true, exec_isoenc_of_taken ht, isoBlock_length ..⟩

/-- Settles O20: one case per check, each failing where the decoder's check of that number does. -/
theorem isodecOutcome : Obligations.IsodecOutcome := by
  rintro s B n hs rfl rfl
  refine ⟨fun hn => exec_isodec_of_error hs (isoDecode_of_short hn),
    fun hn i hi hbefore hat => exec_isodec_of_error hs (isoDecode_of_header hn hi hbefore hat), fun hn hheader => ?_⟩
  have hdec := isoDecode_of_take_four hn hheader
  refine ⟨fun hqm => exec_isodec_of_error hs ?_, fun hqm hfs => exec_isodec_of_error hs ?_, fun hqm hfs => ?_⟩
  · rw [hdec, if_pos hqm]
  · rw [hdec, if_neg (not_not.mpr hqm), if_pos hfs]
  rw [if_neg (not_not.mpr hqm), if_neg (not_not.mpr hfs)] at hdec
  refine ⟨fun h1 => exec_isodec_of_error hs (hdec.trans (isoStrips_of_no_first h1)), fun e1 hlo1 hhi1 hat1 hmin1 => ?_⟩
  have hfirst := (find2_eq_some_iff ..).mpr ⟨⟨hlo1, hhi1, hat1⟩, hmin1⟩
  refine ⟨fun h2 => exec_isodec_of_error hs (hdec.trans (isoStrips_of_no_second hfirst h2)),
    fun e2 hlo2 hhi2 hat2 hmin2 => exec_isodec_of_ok hs ?_⟩
  have hsecond := (find2_eq_some_iff ..).mpr ⟨⟨hlo2, hhi2, hat2⟩, hmin2⟩
  rw [hdec, isoStrips_of_markers hfirst hsecond, optSlice_eq_opt hlo1 (by omega), optSlice_eq_opt hlo2 (by omega),
    optSlice_eq_opt (by omega) (by omega)]

/-! ### The datablock of R69 decoded (R120) -/

section
variable {B X S Y : Bytes}

/-- The marker after a strip that does not hold it is the first one from the strip's start on; a marker cannot begin with
the strip's last byte, as its two bytes differ. -/
theorem find2_of_append_marker {a b : Byte} {q e : Nat} (hB : B = X ++ (S ++ a :: b :: Y)) (hX : X.length = q)
    (hab : a ≠ b) (hS : ¬ [a, b] <:+: S) (he : q + S.length + 1 < e) : find2 B a b q e = some (q + S.length) := by
  have hat : ∀ j, B[q + j]? = (S ++ a :: b :: Y)[j]? := fun j => by
    simp [hB, ← hX, List.getElem?_append_right]
  refine (find2_eq_some_iff ..).mpr ⟨⟨Nat.le_add_right .., he, ?_, ?_⟩, fun j hlo hhi => ?_⟩
  · simp [hat]
  · simp [Nat.add_assoc, hat]
  · obtain ⟨m, rfl⟩ := Nat.exists_eq_add_of_le hlo
    rw [Nat.add_assoc, hat, hat]
    rintro ⟨ha, hb⟩
    have hm : m < S.length := by omega
    rw [List.getElem?_append_left hm] at ha
    rcases Nat.lt_or_ge (m + 1) S.length with hnext | hend
    · rw [List.getElem?_append_left hnext] at hb
      refine hS (List.infix_iff_getElem?.mpr ⟨m, by simp; omega, fun i hi => ?_⟩)
      match i, hi with
      | 0, _ => simpa using ha
      | 1, _ => simpa [Nat.add_comm 1 m] using hb
    · have hlast : m + 1 = S.length := by omega
      rw [hlast] at hb
      exact hab (by simpa using hb)

/-- The segment between two parts of a block. -/
theorem optSlice_of_append {a : Nat} (hB : B = X ++ (S ++ Y)) (hX : X.length = a) :
    optSlice B a (a + S.length) = opt S := by
  subst hB hX
  rw [optSlice_eq_opt (by omega) (by simp), List.drop_take, List.drop_left, Nat.add_sub_cancel_left, List.take_left]

end

section
variable {c : Config} {s1 s2 s3 : Bytes}

/-- The header and the trailer of a datablock pass checks 1 to 4. -/
theorem isoDecode_isoBlock_eq_isoStrips :
    isoDecode c (isoBlock c s1 s2 s3) = isoStrips c (isoBlock c s1 s2 s3) := by
  obtain ⟨P, hP⟩ : ∃ P, isoBlock c s1 s2 s3 = P ++ [c.chQM, c.fs] :=
    ⟨[c.esc, c.chS, c.esc, 0x01] ++ s1 ++ [c.esc, 0x02] ++ s2 ++ [c.esc, 0x03] ++ s3, by simp [isoBlock]⟩
  have hlong : 10 ≤ (isoBlock c s1 s2 s3).length := by rw [isoBlock_length]; omega
  have hqm : (isoBlock c s1 s2 s3)[(isoBlock c s1 s2 s3).length - 2]? = some c.chQM := by simp [hP]
  have hfs : (isoBlock c s1 s2 s3)[(isoBlock c s1 s2 s3).length - 1]? = some c.fs := by simp [hP]
  rw [isoDecode_of_take_four hlong rfl, if_neg (not_not.mpr hqm), if_neg (not_not.mpr hfs)]

/-- ISODEC's decoder undoes the datablock of R69 (R120). -/
theorem isoDecode_isoBlock (h2 : c.esc ≠ 0x02) (h3 : c.esc ≠ 0x03) (hs1 : ¬ [c.esc, 0x02] <:+: s1)
    (hs2 : ¬ [c.esc, 0x03] <:+: s2) : isoDecode c (isoBlock c s1 s2 s3) = .ok (opt s1, opt s2, opt s3) := by
  -- where each strip begins, and what follows it
  obtain ⟨X1, hsplit1, hstart1⟩ : ∃ X, isoBlock c s1 s2 s3 =
      X ++ (s1 ++ c.esc :: 0x02 :: (s2 ++ c.esc :: 0x03 :: (s3 ++ [c.chQM, c.fs]))) ∧ X.length = 4 :=
    ⟨[c.esc, c.chS, c.esc, 0x01], rfl, rfl⟩
  obtain ⟨X2, hsplit2, hstart2⟩ : ∃ X, isoBlock c s1 s2 s3 =
      X ++ (s2 ++ c.esc :: 0x03 :: (s3 ++ [c.chQM, c.fs])) ∧ X.length = 4 + s1.length + 2 :=
    ⟨X1 ++ (s1 ++ [c.esc, 0x02]), by simp [hsplit1], by simp [hstart1, Nat.add_assoc]⟩
  obtain ⟨X3, hsplit3, hstart3⟩ : ∃ X, isoBlock c s1 s2 s3 =
      X ++ (s3 ++ [c.chQM, c.fs]) ∧ X.length = 4 + s1.length + 2 + s2.length + 2 :=
    ⟨X2 ++ (s2 ++ [c.esc, 0x03]), by simp [hsplit2], by simp [hstart2, Nat.add_assoc]⟩
  have hend : (isoBlock c s1 s2 s3).length - 2 = 4 + s1.length + 2 + s2.length + 2 + s3.length := by
    rw [isoBlock_length]
    omega
  have hfirst : find2 (isoBlock c s1 s2 s3) c.esc 0x02 4 ((isoBlock c s1 s2 s3).length - 2) = some (4 + s1.length) :=
    find2_of_append_marker hsplit1 hstart1 h2 hs1 (by omega)
  have hsecond : find2 (isoBlock c s1 s2 s3) c.esc 0x03 (4 + s1.length + 2) ((isoBlock c s1 s2 s3).length - 2) =
      some (4 + s1.length + 2 + s2.length) :=
    find2_of_append_marker hsplit2 hstart2 h3 hs2 (by omega)
  rw [isoDecode_isoBlock_eq_isoStrips, isoStrips_of_markers hfirst hsecond, hend, optSlice_of_append hsplit1 hstart1,
    optSlice_of_append hsplit2 hstart2, optSlice_of_append hsplit3 hstart3]

end

/-- Settles O21: the block in `IN0` is the datablock of R69 of the strips. -/
theorem isoRoundTrip : Obligations.IsoRoundTrip := by
  intro s t s' ht h h2 h3 hs1 hs2 hs' hcfg hin
  rw [exec_isoenc_of_taken ht] at h
  cases h
  refine exec_isodec_of_ok hs' ?_
  rw [hcfg, hin]
  exact isoDecode_isoBlock h2 h3 hs1 hs2

end Sys2Proof.IsoCodecProofs

/-! PROOFS, part 16. The raw datablock codec as operations (R127 to R136): the block RAWENC emits, which check ends RAWDEC
and where, and why a block with an empty strip never comes back. -/

namespace Sys2Proof.RawCodecProofs
open Sys2Proof.Machine Sys2Proof.Spec Sys2Proof.Laws Sys2Proof.StateProofs

/-! ### The encoder (R128, R129) -/

section
variable {c : Config} {p1 p2 p3 : Bytes}

theorem rawBlock_eq_segments :
    rawBlock c p1 p2 p3 =
      [c.esc, c.chS] ++ rawSegment c 1 p1 ++ rawSegment c 2 p2 ++ rawSegment c 3 p3 ++ [c.chQM, c.fs] := by
  simp only [rawBlock, rawSegment_eq]

theorem rawEncode_of_fits (h1 : p1.length ≤ 255) (h2 : p2.length ≤ 255) (h3 : p3.length ≤ 255) :
    rawEncode c p1 p2 p3 = .ok (rawBlock c p1 p2 p3) := by
  rw [rawEncode, (firstTooLong_eq_none_iff p1 p2 p3).mpr ⟨h1, h2, h3⟩, rawBlock_eq_segments]

/-- What one strip contributes to the length of R129. -/
theorem segments_sum_cons (c : Config) (k : Byte) (p : Bytes) (ps : List Bytes) :
    (((p :: ps).filter (· ≠ [])).map (3 + ·.length)).sum =
      (rawSegment c k p).length + ((ps.filter (· ≠ [])).map (3 + ·.length)).sum := by
  cases p with
  | nil => simp [rawSegment]
  | cons b p =>
    simp [rawSegment]
    omega

theorem rawBlock_length (c : Config) (p1 p2 p3 : Bytes) :
    (rawBlock c p1 p2 p3).length = 4 + (([p1, p2, p3].filter (· ≠ [])).map (3 + ·.length)).sum := by
  rw [rawBlock_eq_segments, segments_sum_cons c 1, segments_sum_cons c 2, segments_sum_cons c 3]
  simp
  omega

theorem firstTooLong_eq_some {k : Nat} (hk : k < 3) (hlong : 255 < ([p1, p2, p3].getD k []).length)
    (hbefore : ∀ j, j < k → ([p1, p2, p3].getD j []).length ≤ 255) :
    firstTooLong p1 p2 p3 = some (BitVec.ofNat 8 (k + 1)) := by
  match k, hk with
  | 0, _ => exact if_pos hlong
  | 1, _ =>
    have h1 : ¬ 255 < p1.length := Nat.not_lt.mpr (hbefore 0 (by omega))
    rw [firstTooLong, if_neg h1]
    exact if_pos hlong
  | 2, _ =>
    have h1 : ¬ 255 < p1.length := Nat.not_lt.mpr (hbefore 0 (by omega))
    have h2 : ¬ 255 < p2.length := Nat.not_lt.mpr (hbefore 1 (by omega))
    rw [firstTooLong, if_neg h1, if_neg h2]
    exact if_pos hlong

end

section
variable {s : State}

/-- RAWENC that is taken up encodes its operands (R129). -/
theorem exec_rawenc_of_fits (hs : ready s) (h1 : s.in0.bytes.length ≤ 255) (h2 : s.in1.bytes.length ≤ 255)
    (h3 : s.in2.bytes.length ≤ 255) :
    exec .rawenc s = .next { ended 0x05 s with
      out0 := OutBuf.ofBytes (rawBlock s.cfg s.in0.bytes s.in1.bytes s.in2.bytes) } := by
  show execRawenc s = _
  rw [execRawenc, start_of_accepted _ hs.1 hs.2 rfl, accept_cfg, accept_in0, accept_in1, accept_in2,
    rawEncode_of_fits h1 h2 h3]
  rfl

theorem exec_rawenc_of_too_long {k : Byte} (hs : ready s)
    (h : firstTooLong s.in0.bytes s.in1.bytes s.in2.bytes = some k) :
    exec .rawenc s = .next { ended 0x05 s with err := { kind := .encodingPrecondition, op := 0x05, arg := k } } := by
  show execRawenc s = _
  rw [execRawenc, start_of_accepted _ hs.1 hs.2 rfl, accept_in0, accept_in1, accept_in2, rawEncode, h]
  rfl

/-- RAWDEC that is taken up fails where its decoder does (R132). -/
theorem exec_rawdec_of_error {offset : Nat} (hs : ready s) (h : rawDecode s.cfg s.in0.bytes = .error offset) :
    exec .rawdec s = .next (framed 0x06 offset s.in0.bytes s) := by
  show execRawdec s = _
  rw [execRawdec, start_of_accepted _ hs.1 hs.2 rfl, accept_cfg, accept_in0, h]
  rfl

/-- RAWDEC that is taken up gives the strips its decoder does, each with tag 1 (R131). -/
theorem exec_rawdec_of_ok {p1 p2 p3 : Bytes} (hs : ready s) (h : rawDecode s.cfg s.in0.bytes = .ok (p1, p2, p3)) :
    exec .rawdec s = .next { ended 0x06 s with
      out0 := strip (some p1), out1 := strip (some p2), out2 := strip (some p3) } := by
  show execRawdec s = _
  rw [execRawdec, start_of_accepted _ hs.1 hs.2 rfl, accept_cfg, accept_in0, h]
  rfl

/-- A RAWDEC that ends without an error ends in the decoder's strips (R131). -/
theorem rawDecode_of_exec_ok {t : State} (hs : ready s) (h : exec .rawdec s = .next t) (hk : t.err.kind = .none) :
    rawDecode s.cfg s.in0.bytes = .ok (t.out0.bytes, t.out1.bytes, t.out2.bytes) := by
  cases hdec : rawDecode s.cfg s.in0.bytes with
  | error offset =>
    rw [exec_rawdec_of_error hs hdec] at h
    cases h
    cases hk
  | ok strips =>
    obtain ⟨p1, p2, p3⟩ := strips
    rw [exec_rawdec_of_ok hs hdec] at h
    cases h
    rfl

end

/-- Settles O22: the encoder's block has R129's length, and the first strip that is too long stops it. -/
theorem rawencOutcome : Obligations.RawencOutcome := by
  intro s hs
  refine ⟨fun h1 h2 h3 => ⟨true, exec_rawenc_of_fits hs h1 h2 h3, rawBlock_length .., ?_⟩, fun k hk hlong hbefore => ?_⟩
  · rcases rawEncode_cases s.cfg s.in0.bytes s.in1.bytes s.in2.bytes with ⟨-, hlen⟩ | ⟨k, herr, -⟩
    · exact hlen
    · cases herr.symm.trans (rawEncode_of_fits h1 h2 h3)
  · exact exec_rawenc_of_too_long hs (firstTooLong_eq_some hk hlong hbefore)

/-! ### One segment of the decoder (R132)

`X` is what has been read, so that the segment is looked for at offset `X.length`. -/

section
variable {c : Config} {X rest : Bytes} {k : Byte}

theorem getElem?_append_add (X rest : Bytes) (j : Nat) : (X ++ rest)[X.length + j]? = rest[j]? := by
  rw [List.getElem?_append_right (Nat.le_add_right ..), Nat.add_sub_cancel_left]

/-- `expect` past what has been read looks at the rest. -/
theorem expectByte_append (X rest : Bytes) (j : Nat) (v : Byte) :
    expectByte (X ++ rest) (X.length + j) v = if rest[j]? = some v then .ok () else .error (X.length + j) := by
  rw [expectByte, getElem?_append_add]

/-- The segment's decoding in terms of the rest: its marker, then what its length byte says. -/
theorem rawDecodeSegment_append (c : Config) (X rest : Bytes) (k : Byte) :
    rawDecodeSegment c (X ++ rest) k X.length =
      if rest[0]? ≠ some c.esc then .error X.length
      else if rest[1]? ≠ some k then .error (X.length + 1)
      else rest[2]?.elim (.error (X.length + 2)) fun len =>
        if (rest.drop 3).length < len.toNat then .error (X ++ rest).length
        else .ok ((rest.drop 3).take len.toNat, X.length + 3 + len.toNat) := by
  have h0 := expectByte_append X rest 0 c.esc
  have hslice (n : Nat) : slice (X ++ rest) (X.length + 3) (X.length + 3 + n) = (rest.drop 3).take n := by
    rw [slice, Nat.add_sub_cancel_left, List.drop_length_add_append]
  rw [Nat.add_zero] at h0
  simp only [rawDecodeSegment, h0, expectByte_append, getElem?_append_add, hslice, bind, Except.bind]
  by_cases hesc : rest[0]? = some c.esc
  · by_cases hnum : rest[1]? = some k
    · cases hlen : rest[2]? with
      | none => simp [hesc, hnum]
      | some len =>
        obtain ⟨h3, -⟩ := List.getElem?_eq_some_iff.mp hlen
        have hshort : (X ++ rest).length < X.length + 3 + len.toNat ↔ (rest.drop 3).length < len.toNat := by
          simp only [List.length_append, List.length_drop]
          omega
        simp only [hesc, hnum, hshort, if_true, ne_eq, not_true_eq_false, if_false, Option.elim_some]
    · simp [hesc, hnum]
  · simp [hesc]

/-- A segment that is whole is read whole (R72). -/
theorem rawDecodeSegment_rawSeg {p : Bytes} (hp : p.length ≤ 255) (X Y : Bytes) :
    rawDecodeSegment c (X ++ (rawSeg c k p ++ Y)) k X.length = .ok (p, (X ++ rawSeg c k p).length) := by
  have hlen : (BitVec.ofNat 8 p.length).toNat = p.length := Nat.mod_eq_of_lt (by omega)
  rw [rawDecodeSegment_append]
  simp [rawSeg, hlen, Nat.add_comm, Nat.add_left_comm]
  omega

end

/-! ### The decoder after some segments (R132) -/

section
variable {c : Config} {B rest p p1 p2 p3 : Bytes} {ps : List Bytes}

theorem rawPrefix_concat (c : Config) (ps : List Bytes) (p : Bytes) :
    rawPrefix c (ps ++ [p]) = rawPrefix c ps ++ rawSeg c (BitVec.ofNat 8 (ps.length + 1)) p := by
  simp [rawPrefix, List.zipIdx_append, Nat.add_comm]

theorem rawDecodeSegment_of_rawPrefix (hB : rawPrefix c (ps ++ [p]) <+: B) (hp : p.length ≤ 255) :
    rawDecodeSegment c B (BitVec.ofNat 8 (ps.length + 1)) (rawPrefix c ps).length =
      .ok (p, (rawPrefix c (ps ++ [p])).length) := by
  obtain ⟨Y, rfl⟩ := hB
  rw [rawPrefix_concat, List.append_assoc]
  exact rawDecodeSegment_rawSeg hp ..

theorem expectByte_of_rawPrefix (hB : rawPrefix c ps <+: B) :
    expectByte B 0 c.esc = .ok () ∧ expectByte B 1 c.chS = .ok () := by
  obtain ⟨Y, rfl⟩ := hB
  exact ⟨if_pos rfl, if_pos rfl⟩

theorem rawPrefix_prefix_concat (c : Config) (ps : List Bytes) (p : Bytes) : rawPrefix c ps <+: rawPrefix c (ps ++ [p]) :=
  ⟨_, (rawPrefix_concat c ps p).symm⟩

/-- The first two segments, read. -/
theorem rawDecodeSegment_of_rawPrefix_two (hB : rawPrefix c [p1, p2] <+: B) (h1 : p1.length ≤ 255)
    (h2 : p2.length ≤ 255) :
    rawDecodeSegment c B 0x01 2 = .ok (p1, (rawPrefix c [p1]).length) ∧
      rawDecodeSegment c B 0x02 (rawPrefix c [p1]).length = .ok (p2, (rawPrefix c [p1, p2]).length) :=
  ⟨rawDecodeSegment_of_rawPrefix (ps := []) ((rawPrefix_prefix_concat c [p1] p2).trans hB) h1,
    rawDecodeSegment_of_rawPrefix (ps := [p1]) hB h2⟩

/-- After at most two segments the decoder fails where the next one does. -/
theorem rawDecode_of_segment_error {offset : Nat} (hB : rawPrefix c ps <+: B) (hps : ∀ p ∈ ps, p.length ≤ 255)
    (hlt : ps.length < 3)
    (h : rawDecodeSegment c B (BitVec.ofNat 8 (ps.length + 1)) (rawPrefix c ps).length = .error offset) :
    rawDecode c B = .error offset := by
  obtain ⟨hesc, hchS⟩ := expectByte_of_rawPrefix hB
  match ps, hlt with
  | [], _ =>
    have e1 : rawDecodeSegment c B 0x01 2 = .error offset := h
    simp only [rawDecode, hesc, hchS, e1, bind, Except.bind]
  | [p1], _ =>
    have e1 : rawDecodeSegment c B 0x01 2 = .ok (p1, (rawPrefix c [p1]).length) :=
      rawDecodeSegment_of_rawPrefix (ps := []) hB (hps p1 (by simp))
    have e2 : rawDecodeSegment c B 0x02 (rawPrefix c [p1]).length = .error offset := h
    simp only [rawDecode, hesc, hchS, e1, e2, bind, Except.bind]
  | [p1, p2], _ =>
    obtain ⟨e1, e2⟩ := rawDecodeSegment_of_rawPrefix_two hB (hps p1 (by simp)) (hps p2 (by simp))
    have e3 : rawDecodeSegment c B 0x03 (rawPrefix c [p1, p2]).length = .error offset := h
    simp only [rawDecode, hesc, hchS, e1, e2, e3, bind, Except.bind]

/-- After three segments the trailer decides, and what follows it does not (R132, R133). -/
theorem rawDecode_of_three_segments (h1 : p1.length ≤ 255) (h2 : p2.length ≤ 255) (h3 : p3.length ≤ 255) :
    rawDecode c (rawPrefix c [p1, p2, p3] ++ rest) =
      if rest[0]? ≠ some c.chQM then .error (rawPrefix c [p1, p2, p3]).length
      else if rest[1]? ≠ some c.fs then .error ((rawPrefix c [p1, p2, p3]).length + 1)
      else .ok (p1, p2, p3) := by
  have hB : rawPrefix c [p1, p2, p3] <+: rawPrefix c [p1, p2, p3] ++ rest := List.prefix_append ..
  obtain ⟨hesc, hchS⟩ := expectByte_of_rawPrefix hB
  obtain ⟨e1, e2⟩ := rawDecodeSegment_of_rawPrefix_two ((rawPrefix_prefix_concat c [p1, p2] p3).trans hB) h1 h2
  have e3 : rawDecodeSegment c (rawPrefix c [p1, p2, p3] ++ rest) 0x03 (rawPrefix c [p1, p2]).length =
      .ok (p3, (rawPrefix c [p1, p2, p3]).length) := rawDecodeSegment_of_rawPrefix (ps := [p1, p2]) hB h3
  have hqm := expectByte_append (rawPrefix c [p1, p2, p3]) rest 0 c.chQM
  have hfs := expectByte_append (rawPrefix c [p1, p2, p3]) rest 1 c.fs
  rw [Nat.add_zero] at hqm
  simp only [rawDecode, hesc, hchS, e1, e2, e3, hqm, hfs, bind, Except.bind]
  by_cases hq : rest[0]? = some c.chQM
  · by_cases hf : rest[1]? = some c.fs
    · simp [hq, hf]
    · simp [hq, hf]
  · simp [hq]

/-- The decoder undoes the datablock with all three segments, whatever follows it (R133, R135). -/
theorem rawDecode_rawFull (h1 : p1.length ≤ 255) (h2 : p2.length ≤ 255) (h3 : p3.length ≤ 255) (junk : Bytes) :
    rawDecode c (rawFull c p1 p2 p3 ++ junk) = .ok (p1, p2, p3) := by
  rw [rawFull, List.append_assoc, rawDecode_of_three_segments h1 h2 h3]
  simp

theorem rawDecode_of_no_esc (h0 : B[0]? ≠ some c.esc) : rawDecode c B = .error 0 := by
  simp only [rawDecode, expectByte, if_neg h0, bind, Except.bind]

theorem rawDecode_of_no_chS (h0 : B[0]? = some c.esc) (h1 : B[1]? ≠ some c.chS) : rawDecode c B = .error 1 := by
  simp only [rawDecode, expectByte, if_pos h0, if_neg h1, bind, Except.bind]

end

/-- Settles O23: the header, then one case per check of the next segment, then the trailer. -/
theorem rawdecOutcome : Obligations.RawdecOutcome := by
  intro s B hs hB
  have fails {offset : Nat} (h : rawDecode s.cfg B = .error offset) : exec .rawdec s = .next (framed 0x06 offset B s) := by
    subst hB
    exact exec_rawdec_of_error hs h
  refine ⟨fun p1 p2 p3 junk hfull h1 h2 h3 => exec_rawdec_of_ok hs ?_, fun h0 => fails (rawDecode_of_no_esc h0),
    fun h0 h1 => fails (rawDecode_of_no_chS h0 h1), fun ps rest hread hps => ⟨fun hlt => ?_, fun hthree => ?_⟩⟩
  · rw [← hB, hfull, rawDecode_rawFull h1 h2 h3]
  · have hseg := rawDecodeSegment_append s.cfg (rawPrefix s.cfg ps) rest (BitVec.ofNat 8 (ps.length + 1))
    have failsIn {offset : Nat} (h : rawDecodeSegment s.cfg (rawPrefix s.cfg ps ++ rest) (BitVec.ofNat 8 (ps.length + 1))
        (rawPrefix s.cfg ps).length = .error offset) : exec .rawdec s = .next (framed 0x06 offset B s) := by
      refine fails (rawDecode_of_segment_error ⟨rest, hread.symm⟩ hps hlt ?_)
      rw [hread, h]
    refine ⟨fun h0 => failsIn ?_, fun h0 h1 => failsIn ?_, fun hend => failsIn ?_,
      fun len body hlen hshort => failsIn ?_⟩
    · rw [hseg, if_pos h0]
    · rw [hseg, if_neg (not_not.mpr h0), if_pos h1]
    · rw [hseg]
      simp [hend]
    · rw [hseg, hread]
      simp [hlen, hshort]
  · match ps, hthree with
    | [p1, p2, p3], _ =>
      have hdec := rawDecode_of_three_segments (c := s.cfg) (rest := rest) (hps p1 (by simp)) (hps p2 (by simp))
        (hps p3 (by simp))
      rw [← hread] at hdec
      refine ⟨fun hqm => fails ?_, fun hqm hfs => fails ?_⟩
      · rw [hdec, if_pos hqm]
      · rw [hdec, if_neg (not_not.mpr hqm), if_pos hfs]

/-! ### Blocks of the encoder (R135, R136) -/

section
variable {c : Config} {rest p1 p2 p3 : Bytes} {ps : List Bytes}

/-- A block of the encoder with three segments is the full one (R73). -/
theorem rawBlock_eq_rawFull (h1 : p1 ≠ []) (h2 : p2 ≠ []) (h3 : p3 ≠ []) :
    rawBlock c p1 p2 p3 = rawFull c p1 p2 p3 := by
  simp [rawBlock, h1, h2, h3, rawFull, rawPrefix]

/-- Where the next segment's number does not stand before a length byte, no segment begins. -/
theorem rawDecodeSegment_error_of_absent {k : Byte} (X : Bytes) (h : rest[1]? = some k → rest.length ≤ 2) :
    ∃ offset, rawDecodeSegment c (X ++ rest) k X.length = .error offset := by
  have absent {len : Byte} (h1 : (X ++ rest)[X.length + 1]? = some k) (h2 : (X ++ rest)[X.length + 2]? = some len) :
      False := by
    rw [getElem?_append_add] at h1 h2
    obtain ⟨hlt, -⟩ := List.getElem?_eq_some_iff.mp h2
    have := h h1
    omega
  rcases rawDecodeSegment_cases c (X ++ rest) k X.length with
    ⟨-, e⟩ | ⟨-, -, e⟩ | ⟨-, -, -, e⟩ | ⟨len, -, h1, h2, -⟩ | ⟨len, -, h1, h2, -⟩
  · exact ⟨_, e⟩
  · exact ⟨_, e⟩
  · exact ⟨_, e⟩
  · exact (absent h1 h2).elim
  · exact (absent h1 h2).elim

theorem rawDecode_error_of_absent (hps : ∀ p ∈ ps, p.length ≤ 255) (hlt : ps.length < 3)
    (h : rest[1]? = some (BitVec.ofNat 8 (ps.length + 1)) → rest.length ≤ 2) :
    ∃ offset, rawDecode c (rawPrefix c ps ++ rest) = .error offset := by
  obtain ⟨offset, e⟩ := rawDecodeSegment_error_of_absent (c := c) (rawPrefix c ps) h
  exact ⟨offset, rawDecode_of_segment_error (List.prefix_append ..) hps hlt e⟩

/-- Where the first empty strip's segment is due, the block of the encoder has a later one or ends (R136). -/
theorem rawDecode_rawBlock_of_empty (h1 : p1.length ≤ 255) (h2 : p2.length ≤ 255) (hempty : [] ∈ [p1, p2, p3]) :
    ∃ offset, rawDecode c (rawBlock c p1 p2 p3) = .error offset := by
  by_cases n1 : p1 = []
  · have hblock : rawBlock c p1 p2 p3 = rawPrefix c [] ++ ((if p2 = [] then [] else rawSeg c 0x02 p2) ++
        (if p3 = [] then [] else rawSeg c 0x03 p3) ++ [c.chQM, c.fs]) := by
      simp [rawBlock, rawPrefix, n1]
    rw [hblock]
    refine rawDecode_error_of_absent (by simp) (by simp) ?_
    by_cases n2 : p2 = []
    · by_cases n3 : p3 = []
      · simp [n2, n3]
      · simp [n2, n3, rawSeg]
    · simp [n2, rawSeg]
  · by_cases n2 : p2 = []
    · have hblock : rawBlock c p1 p2 p3 =
          rawPrefix c [p1] ++ ((if p3 = [] then [] else rawSeg c 0x03 p3) ++ [c.chQM, c.fs]) := by
        simp [rawBlock, rawPrefix, n1, n2]
      rw [hblock]
      refine rawDecode_error_of_absent (by simp [h1]) (by simp) ?_
      by_cases n3 : p3 = []
      · simp [n3]
      · simp [n3, rawSeg]
    · have n3 : p3 = [] := by simpa [eq_comm, n1, n2] using hempty
      have hblock : rawBlock c p1 p2 p3 = rawPrefix c [p1, p2] ++ [c.chQM, c.fs] := by
        simp [rawBlock, rawPrefix, n1, n2, n3]
      rw [hblock]
      exact rawDecode_error_of_absent (by simp [h1, h2]) (by simp) (by simp)

end

/-- Settles O24: no strip is empty, so the block has all three segments. -/
theorem rawRoundTrip : Obligations.RawRoundTrip := by
  intro s hs hlen
  obtain ⟨pos1, h1⟩ := hlen s.in0.bytes (by simp)
  obtain ⟨pos2, h2⟩ := hlen s.in1.bytes (by simp)
  obtain ⟨pos3, h3⟩ := hlen s.in2.bytes (by simp)
  have hblock := rawBlock_eq_rawFull (c := s.cfg) (List.ne_nil_of_length_pos pos1) (List.ne_nil_of_length_pos pos2)
    (List.ne_nil_of_length_pos pos3)
  refine ⟨_, exec_rawenc_of_fits hs h1 h2 h3, fun s' hs' hcfg hin => exec_rawdec_of_ok hs' ?_⟩
  have hread : s'.in0.bytes = rawFull s.cfg s.in0.bytes s.in1.bytes s.in2.bytes ++ [] := by
    rw [List.append_nil, ← hblock]
    exact hin
  rw [hcfg, hread, rawDecode_rawFull h1 h2 h3]

/-- Settles O25: RAWDEC rejects a block of RAWENC with an empty strip, so RAWENC cannot give back a block that RAWDEC read
one from. -/
theorem rawEmptyStripAsymmetry : Obligations.RawEmptyStripAsymmetry := by
  refine ⟨fun s hs hlen hempty => ?_, fun s t s' hs h hk hempty hs' hcfg hin0 hin1 hin2 => ?_⟩
  · obtain ⟨h1, h2, h3⟩ : s.in0.bytes.length ≤ 255 ∧ s.in1.bytes.length ≤ 255 ∧ s.in2.bytes.length ≤ 255 := by
      simpa using hlen
    refine ⟨_, exec_rawenc_of_fits hs h1 h2 h3, fun s' hs' hcfg hin => ?_⟩
    obtain ⟨offset, hdec⟩ := rawDecode_rawBlock_of_empty (c := s.cfg) h1 h2 hempty
    rw [← hin]
    refine ⟨offset, exec_rawdec_of_error hs' ?_⟩
    rw [hcfg, hin]
    exact hdec
  · have hdec := rawDecode_of_exec_ok hs h hk
    obtain ⟨h1, h2, h3⟩ := rawDecode_length hdec
    refine ⟨_, exec_rawenc_of_fits hs' (hin0 ▸ h1) (hin1 ▸ h2) (hin2 ▸ h3), rfl, fun hsame => ?_⟩
    obtain ⟨offset, herr⟩ := rawDecode_rawBlock_of_empty (c := s.cfg) h1 h2 hempty
    have hblock : rawBlock s.cfg t.out0.bytes t.out1.bytes t.out2.bytes = s.in0.bytes := by
      rw [← hcfg, ← hin0, ← hin1, ← hin2]
      exact hsame
    rw [hblock, hdec] at herr
    cases herr

end Sys2Proof.RawCodecProofs

/-! PROOFS, part 17. The transport's operations (R141 to R158): SEND and PARSE as operations, and how an operation of one
transaction ends when the device is silent, sends no response, or sends one. -/

namespace Sys2Proof.TransportProofs
open Sys2Proof.Machine Sys2Proof.Spec Sys2Proof.Laws Sys2Proof.StateProofs Sys2Proof.EncodingProofs

/-! ### SEND (R141, R143) -/

/-- A frame that awaits nothing: the device sends before the write and before the end of the settling time. -/
theorem sendFrame_eq_arrivals (C : Bytes) (s : State) :
    sendFrame C s = { s with
      txs := s.txs ++ s.cfg.esc :: C, rxf := s.rxf ++ arrival s 0 ++ arrival s 1, dev := s.dev.drop 2
      tstate := .idle, tmr := 0 } := by
  simp [sendFrame, arrive_eq_arrival, doTx, linkWrite, frame, arrival, List.getD_eq_getElem?_getD]

/-- An operation that only writes a frame, once it is taken up. -/
theorem start_sendFrame {s : State} {op : OpSel} {C : State → Bytes} (hs : ready s) :
    start op true s (fun u => .next (complete (sendFrame (C u) u))) = .next { ended op s with
      txs := s.txs ++ s.cfg.esc :: C (accept op s), rxf := s.rxf ++ arrival s 0 ++ arrival s 1, dev := s.dev.drop 2
      tmr := 0 } := by
  rw [start_of_accepted _ hs.1 hs.2 rfl, sendFrame_eq_arrivals]
  rfl

/-- Settles O26: each of the three writes one frame, with command bytes the accepted state still holds. -/
theorem sendResult : Obligations.SendResult := by
  intro s i C hs hi
  simp only [List.mem_cons, List.not_mem_nil, or_false, Prod.mk.injEq] at hi
  rcases hi with ⟨rfl, rfl⟩ | ⟨rfl, rfl⟩ | ⟨rfl, rfl⟩
  · exact start_sendFrame (C := fun u => u.in0.bytes) hs
  · exact start_sendFrame (C := fun u => [u.cfg.opcReset]) hs
  · exact start_sendFrame (C := fun u => [u.cfg.opcReset]) hs

/-! ### PARSE (R157, R158) -/

/-- In a response a byte other than `ESC` stands last, and `ESC` occurs; so what is no response does not parse (R158). -/
theorem parseResponse_of_noResponse {c : Config} {B : Bytes} (h : noResponse c B) : parseResponse c B = none := by
  rw [Option.eq_none_iff_forall_ne_some]
  intro r hr
  obtain ⟨rfl, hesc⟩ := (parseResponse_iff_isResponse ..).mp hr
  rcases h with habsent | ⟨X, hX⟩
  · exact habsent (by simp)
  · have hsplit : (r.data ++ [c.esc]) ++ r.status :: r.imm = X ++ [c.esc] := by rw [← hX]; simp
    have hlast : (r.status :: r.imm).getLast (by simp) = c.esc := by
      rw [← List.getLast_append_of_right_ne_nil (r.data ++ [c.esc]) _ (by simp)]
      simp [hsplit]
    exact hesc (hlast ▸ List.getLast_mem _)

/-- PARSE of what is no response (R158). -/
theorem exec_parse_of_noResponse {s : State} (hs : ready s) (h : noResponse s.cfg s.in0.bytes) :
    exec .parse s = .next (framed 0x09 s.in0.bytes.length s.in0.bytes s) := by
  show execParse s = _
  rw [execParse, start_of_accepted _ hs.1 hs.2 rfl]
  simp only [accept_cfg, accept_in0, parseResponse_of_noResponse h]
  rfl

/-- Settles O27: the cut at the last `ESC` is the response, and its parts add up to the buffer. -/
theorem parseSuccess : Obligations.ParseSuccess := by
  intro s r hs hr
  have hlen := length_of_isResponse hr
  exact ⟨exec_parse_of_isResponse hs hr, by omega⟩

/-! ### The FSM (R145, R153) -/

/-- Settles O29, by the closed form of a transaction. -/
theorem fsmIsStraightLine : Obligations.FsmIsStraightLine := transact_eq_straightLine

/-! ### The operations of one transaction (R82, R144) -/

section
variable {s : State} {i : Instr} {op : OpSel} {C : Bytes}

/-- An operation of one transaction is SENDWAIT's, its status not looked at, or a command with the status check and
what follows it (R82, R144, R167). -/
theorem exec_of_transaction (hs : ready s) (h : transaction s i = some (op, C)) :
    (op = 0x08 ∧ ∃ timeout, exec i s = wireTransaction C timeout (accept op s)) ∨
    (op ≠ 0x08 ∧ ∃ timeout k, exec i s = command C timeout 0 (accept op s) k) := by
  have taken_up : ∀ (op : OpSel) (body : State → Result), start op true s body = body (accept op s) :=
    fun _ body => start_of_accepted body hs.1 hs.2 rfl
  cases i with
  | pack | unpack | isoenc | isodec | rawenc | rawdec | send | parse | reset | writeRaw | setBpi | cmdReset => cases h
  | sendwait | cmdReadIso | cmdReadRaw | cmdWriteIso | cmdWriteRaw | cmdErase | cmdSetBpc | cmdSetBpi | cmdSetHico
    | cmdSetLoco =>
    cases h
    unfold exec
    exact .inl ⟨rfl, _, taken_up ..⟩
  | readIso | readRaw | setHico | setLoco | setBpc =>
    cases h
    unfold exec
    exact .inr ⟨by decide, _, _, taken_up ..⟩
  | writeIso =>
    cases h
    simp only [← isoEncode_eq_isoBlock, ← stripOrEmpty_eq_presentBytes]
    unfold exec
    exact .inr ⟨by decide, _, _, taken_up ..⟩
  | erase t1 t2 t3 =>
    cases h
    rw [← eraseMask_eq_trackMask]
    unfold exec
    exact .inr ⟨by decide, _, _, taken_up ..⟩

/-- Whatever follows it, an operation of one transaction begins with that transaction. -/
theorem exec_eq_sendWait (hs : ready s) (h : transaction s i = some (op, C)) :
    ∃ timeout k, exec i s = sendWait C timeout (accept op s) k := by
  rcases exec_of_transaction hs h with ⟨-, timeout, he⟩ | ⟨-, timeout, k, he⟩
  · exact ⟨timeout, _, he⟩
  · exact ⟨timeout, _, he⟩

end

/-! ### How a transaction raises (R149, R151) -/

section
variable {C : Bytes} {timeout : Nat} {s : State} {k : State → Result}

/-- Nothing came in time (R149). -/
theorem sendWait_of_silence (he : early s = []) :
    sendWait C timeout s k = .next (raise .timeout (silent C s)) := by
  rcases sendWait_outcome C timeout s k with ⟨-, h⟩ | ⟨hne, -⟩ | ⟨r, hne, -⟩
  · exact h
  · exact absurd he hne
  · exact absurd he hne

/-- What came is no response (R151, R158). -/
theorem sendWait_of_noResponse (he : early s ≠ []) (hn : noResponse s.cfg (accumulated s)) :
    sendWait C timeout s k = .next (raise (.framing (accumulated s).length (accumulated s)) (heard C s)) := by
  have hparse := parseResponse_of_noResponse hn
  rcases sendWait_outcome C timeout s k with ⟨hnone, -⟩ | ⟨-, -, h⟩ | ⟨r, -, hr, -⟩
  · exact absurd hnone he
  · exact h
  · rw [(parseResponse_iff_isResponse ..).mpr hr] at hparse
    cases hparse

/-- A transaction that ends its operation in a `FramingError` has accumulated the bytes the error keeps, at least one, and
reports their number as the offset (R151, R158). -/
theorem wireTransaction_framingError {t : State} (hc : s.err = {}) (h : wireTransaction C timeout s = .next t)
    (hk : t.err.kind = .framingError) : 1 ≤ t.err.raw.length ∧ t.err.offset = t.err.raw.length := by
  rcases sendWait_outcome C timeout s fun u => .next (complete u) with ⟨-, hend⟩ | ⟨he, -, hend⟩ | ⟨r, -, -, hend⟩
  · cases h.symm.trans hend
    cases hk
  · cases h.symm.trans hend
    exact ⟨List.length_pos_of_ne_nil (accumulated_ne_nil he), rfl⟩
  · cases h.symm.trans hend
    change s.err.kind = _ at hk
    rw [hc] at hk
    cases hk

end

/-- Settles O28: PARSE by what does not parse, SENDWAIT by the first byte its transaction has received. -/
theorem parseFailure : Obligations.ParseFailure := by
  refine ⟨fun s hs h => exec_parse_of_noResponse hs h, fun s t timeout hs h hk => ?_⟩
  change execSendwait timeout s = _ at h
  rw [execSendwait, start_of_accepted _ hs.1 hs.2 rfl] at h
  exact wireTransaction_framingError (accept_err ..) h hk

/-- Settles O30: the operation begins with its transaction, which raises. -/
theorem silentDeviceTimesOut : Obligations.SilentDeviceTimesOut := by
  intro s i op C hs h he
  obtain ⟨timeout, k, hexec⟩ := exec_eq_sendWait hs h
  rw [hexec]
  exact sendWait_of_silence (s := accept op s) he

/-- Settles O31: the operation begins with its transaction, which raises with what it accumulated. -/
theorem unparsableResponseIsFramingError : Obligations.UnparsableResponseIsFramingError := by
  intro s i op C hs h he hn
  obtain ⟨timeout, k, hexec⟩ := exec_eq_sendWait hs h
  rw [hexec]
  exact sendWait_of_noResponse (s := accept op s) he hn

/-- Settles O33: an operation that looks at the status has another select code. -/
theorem sendwaitAndWireCommandsComplete : Obligations.SendwaitAndWireCommandsComplete := by
  intro s i C r hs h he hr
  rcases exec_of_transaction hs h with ⟨-, timeout, hexec⟩ | ⟨hne, -⟩
  · rw [hexec]
    exact sendWait_of_response (s := accept 0x08 s) he hr
  · exact absurd rfl hne

end Sys2Proof.TransportProofs

/-! PROOFS, part 18. Every operation ends with the block idle and its error registers whole (R152, R199), and every step
leads to a next state (R154, R197, R201). -/

namespace Sys2Proof.TransportProofs
open Sys2Proof.Machine Sys2Proof.Spec Sys2Proof.Laws Sys2Proof.StateProofs

/-! ### The end of an operation -/

/-- The block after an operation with select code `op` (R152, R191, R199). -/
structure Settled (c : Config) (op : OpSel) (t : State) : Prop where
  not_busy : t.busy = false
  idle : t.tstate = .idle
  opsel : t.opsel = op
  err_wf : t.err.wf c
  err_whole : t.err.kind ≠ .none → t.err.op = op ∧ t.resultsCleared

/-- Well-formed error registers that hold no error are clear (R191). -/
theorem err_eq_clear {c : Config} {e : ErrRegs} (h : e.wf c) (hk : e.kind = .none) : e = {} := by
  rw [ErrRegs.wf, hk] at h
  exact h

section
variable {c : Config} {i : Instr} {s t u : State}

/-- The normal end (R152). -/
theorem settled_complete {op : OpSel} (hop : u.opsel = op) (he : u.err = {}) : Settled c op (complete u) where
  not_busy := rfl
  idle := rfl
  opsel := hop
  err_wf := by rw [complete_err, he]; rfl
  err_whole hk := absurd (by rw [complete_err, he]) hk

/-- The end by an error (R199). -/
theorem settled_raise {op : OpSel} {e : Err} (hop : u.opsel = op)
    (hstatus : ∀ st arg, e = .deviceStatus st arg → st ≠ c.stOK) (hstrip : ∀ k, e = .precondition k → k.toNat ≤ 3) :
    Settled c op (raise e u) where
  not_busy := rfl
  idle := rfl
  opsel := hop
  err_wf := errRegs_wf c u.opsel e hstatus hstrip
  err_whole _ := ⟨(errRegs_op u.opsel e).trans hop, rfl, rfl, rfl⟩

/-- An error of a codec ends an operation whole (R193, R195). -/
theorem settled_raise_codecError {op : OpSel} {e : Err} (hop : u.opsel = op) (he : CodecError u e) :
    Settled c op (raise e u) := by
  cases he with
  | precondition hk => exact settled_raise hop nofun fun _ h => by cases h; exact hk
  | operand => exact settled_raise hop nofun nofun
  | response => exact settled_raise hop nofun nofun

/-- However an operation that was taken up ends, the block has settled. -/
theorem settled_of_ends (h : Ends i s t) (ht : taken i s) : Settled s.cfg (selectCode i) t := by
  cases h with
  | refused hn => exact absurd ht hn
  | completed hu => exact settled_complete hu.cleared.1 hu.cleared.2.1
  | parsed => exact settled_complete rfl rfl
  | sent => exact settled_complete (by rw [sendFrame_eq]; rfl) (by rw [sendFrame_eq]; rfl)
  | codecFailed hu _ _ he => exact settled_raise_codecError hu.cleared.1 he
  | encodingFailed hu _ hk => exact settled_raise_codecError hu.cleared.1 (.precondition hk)
  | timedOut hu => exact settled_raise hu.cleared.1 nofun nofun
  | unparsable hu => exact settled_raise hu.cleared.1 nofun nofun
  | turnedDown hu _ _ _ hst =>
    exact settled_raise hu.cleared.1 (fun _ _ h => by cases h; exact hu.cfg ▸ hst) nofun

end

/-- Settles O42, from the ways an operation can end. -/
theorem everyOperationEnds : Obligations.EveryOperationEnds := by
  intro i s ht
  obtain ⟨t, hexec, hends⟩ := exec_endsIn s i
  obtain ⟨hbusy, hidle, hop, hwf, hwhole⟩ := settled_of_ends hends ht
  exact ⟨t, hexec, hbusy, hidle, hop, hwf, err_eq_clear hwf, hwhole⟩

/-! ### The run of the block -/

/-- A request leads to a next state, decoded or not (R80, R154). -/
theorem takeRequest_next (r : Request) (s : State) : ∃ t, takeRequest r s = .next t := by
  unfold takeRequest
  split
  · next i _ =>
    obtain ⟨t, hexec, -⟩ := exec_endsIn s i
    exact ⟨t, hexec⟩
  · exact ⟨s, rfl⟩

/-- Every act of the host leads to a next state (R197, R201). -/
theorem step_next (s : State) : ∃ t, step s = .next t := by
  cases hhost : s.host with
  | nil => exact ⟨_, step_no_act hhost⟩
  | cons a rest =>
    cases a with
    | load k b p => exact ⟨_, step_load hhost⟩
    | request r => exact step_request hhost ▸ takeRequest_next r _
    | idle => exact ⟨_, step_idle hhost⟩
    | reset rx => exact ⟨_, step_reset hhost⟩
    | teardown => exact ⟨_, step_teardown hhost⟩

/-- Settles O52, by induction on the length of the run. -/
theorem blockNeverStops : Obligations.BlockNeverStops := by
  intro n
  induction n with
  | zero => exact fun _ => trivial
  | succ n ih =>
    intro s
    obtain ⟨t, hstep⟩ := step_next s
    exact ⟨t, hstep, ih t⟩

end Sys2Proof.TransportProofs

/-! PROOFS, part 19. The command sequencer (R166 to R180): how a checked command ends for each answer of the device, and the
operations made of one command. -/

namespace Sys2Proof.CommandProofs
open Sys2Proof.Machine Sys2Proof.Spec Sys2Proof.Laws Sys2Proof.StateProofs Sys2Proof.PackerProofs Sys2Proof.EncodingProofs
  Sys2Proof.IsoCodecProofs Sys2Proof.RawCodecProofs Sys2Proof.TransportProofs

/-! ### What the device answers -/

/-- A buffer is a response or none (R157, R158): its last `ESC` is followed by a status, or there is none to follow. -/
theorem noResponse_or_isResponse (c : Config) (B : Bytes) : noResponse c B ∨ ∃ r, isResponse c B r := by
  cases h : rindex c.esc B with
  | none => exact .inl (.inl ((rindex_eq_none_iff ..).mp h))
  | some p =>
    obtain ⟨X, Y, rfl, -, hY⟩ := (rindex_eq_some_iff ..).mp h
    cases Y with
    | nil => exact .inl (.inr ⟨X, rfl⟩)
    | cons status imm => exact .inr ⟨⟨status, imm, X⟩, rfl, hY⟩

/-- The device is silent, or sends what is no response, or a response (R149, R151). -/
theorem answer_cases (s : State) :
    early s = [] ∨ (early s ≠ [] ∧ noResponse s.cfg (accumulated s)) ∨
    ∃ r, early s ≠ [] ∧ isResponse s.cfg (accumulated s) r := by
  by_cases he : early s = []
  · exact .inl he
  · rcases noResponse_or_isResponse s.cfg (accumulated s) with hn | ⟨r, hr⟩
    · exact .inr (.inl ⟨he, hn⟩)
    · exact .inr (.inr ⟨r, he, hr⟩)

/-! ### The status check (R167) -/

/-- A command whose response has another status than `ST_OK` raises it, with the argument it was given (R167, R194). -/
theorem command_of_turnedDown {C : Bytes} {timeout : Nat} {arg : Byte} {s : State} {r : Response} {k : State → Result}
    (he : early s ≠ []) (hr : isResponse s.cfg (accumulated s) r) (hst : r.status ≠ s.cfg.stOK) :
    command C timeout arg s k =
      .next (raise (.deviceStatus r.status arg) { heard C s with rsp := r, tstate := .idle }) := by
  rw [command, sendWait_of_response he hr]
  exact if_neg hst

/-- Settles O32: an operation that looks at the status is a command, and the command raises. -/
theorem failureStatusIsDeviceStatusError : Obligations.FailureStatusIsDeviceStatusError := by
  intro s i op C r hs h hop he hr hst
  rcases exec_of_transaction hs h with ⟨hwire, -⟩ | ⟨-, timeout, k, hexec⟩
  · exact absurd hwire hop
  · rw [hexec]
    exact command_of_turnedDown (s := accept op s) he hr hst

/-! ### The operations that end with their status check (R174, R176, R177, R179) -/

/-- WRITE_ISO, ERASE, SET_HICO, SET_LOCO and SET_BPC are a command and nothing more. -/
theorem exec_of_statusOperation {s : State} {i : Instr} {op : OpSel} {C : Bytes} (hs : ready s)
    (h : transaction s i = some (op, C)) (hop : op ∈ [(0x13 : OpSel), 0x15, 0x16, 0x17, 0x19]) :
    ∃ timeout, exec i s = command C timeout 0 (accept op s) fun u => .next (complete u) := by
  have taken_up : ∀ (op : OpSel) (body : State → Result), start op true s body = body (accept op s) :=
    fun _ body => start_of_accepted body hs.1 hs.2 rfl
  cases i with
  | setHico | setLoco | setBpc =>
    cases h
    unfold exec
    exact ⟨_, taken_up ..⟩
  | writeIso =>
    cases h
    simp only [← isoEncode_eq_isoBlock, ← stripOrEmpty_eq_presentBytes]
    unfold exec
    exact ⟨_, taken_up ..⟩
  | erase t1 t2 t3 =>
    cases h
    rw [← eraseMask_eq_trackMask]
    unfold exec
    exact ⟨_, taken_up ..⟩
  | _ => cases h <;> exact absurd hop (by decide)

/-- Settles O34: the command goes on, to the normal end. -/
theorem statusOperationsComplete : Obligations.StatusOperationsComplete := by
  intro s i op C r hs h hop he hr hst
  obtain ⟨timeout, hexec⟩ := exec_of_statusOperation hs h hop
  rw [hexec]
  exact command_of_accepted (s := accept op s) he hr hst

/-! ### READ_ISO (R172) -/

/-- Settles O35: the decoder of READ_ISO undoes the datablock. -/
theorem readIsoCompletes : Obligations.ReadIsoCompletes := by
  intro s r s1 s2 s3 hs he hr hst hdata h2 h3 hs1 hs2
  have hdec := isoDecode_isoBlock (s3 := s3) h2 h3 hs1 hs2
  rw [← hdata] at hdec
  rcases exec_readIso_cases hs he hr hst with ⟨o1, o2, o3, hdec', hend⟩ | ⟨offset, hdec', -⟩
  · cases hdec.symm.trans hdec'
    simpa only [ofStrip_eq_strip] using hend
  · cases hdec.symm.trans hdec'

/-! ### READ_RAW (R173) -/

/-- UNPACK with a well-formed track gives the track's result by the bit stream (R44, R173). -/
theorem unpackTrack_eq_unpackedTrack {t : TrackCfg} {s : State} (h : t.wf s.cfg = true) (P : Bytes)
    (k : OutBuf → State → Result) : unpackTrack t P s k = k (unpackedTrack s.cfg t P) (discardUnpackRegs s) := by
  have hpre := (packerPre_iff_pre ..).mp (packerPre_of_track h)
  rw [unpackTrack_of_wf h, unpackResult_eq_unpacked hpre, unpackedTrack]

/-- What well-formed parameters say of the tracks (R219). -/
theorem tracks_wf {c : Config} (h : c.wf = true) :
    c.track1.wf c = true ∧ c.track2.wf c = true ∧ c.track3.wf c = true := by
  obtain ⟨-, -, -, h1, h2, h3, -⟩ := (config_wf_iff c).mp h
  exact ⟨h1, h2, h3⟩

/-- READ_RAW after its command: the response's data decoded, each strip unpacked (R173). -/
def unpackResponse (s : State) : Result :=
  match rawDecode s.cfg s.rsp.data with
  | .error offset => raised (.framing offset s.rsp.data) s
  | .ok (p1, p2, p3) =>
    unpackTrack s.cfg.track1 p1 s fun o1 s =>
    unpackTrack s.cfg.track2 p2 s fun o2 s =>
    unpackTrack s.cfg.track3 p3 s fun o3 s =>
      .next (complete { s with out0 := o1, out1 := o2, out2 := o3 })

/-- READ_RAW is a command and `unpackResponse` (R173). -/
theorem exec_readRaw_eq_command {s : State} (hs : ready s) :
    exec .readRaw s = command [s.cfg.opcReadRaw] s.cfg.tLong 0 (accept 0x12 s) unpackResponse := by
  show execReadRaw s = _
  rw [execReadRaw, start_of_accepted _ hs.1 hs.2 rfl]
  rfl

/-- Data that RAWDEC takes: the three UNPACKs leave the working registers free within their bounds (R173, U24). -/
theorem unpackResponse_of_decoded {u : State} {p1 p2 p3 : Bytes} (hwf : u.cfg.wf = true)
    (hdec : rawDecode u.cfg u.rsp.data = .ok (p1, p2, p3)) :
    ∃ a n l q z d, BitVec.toNat a < 2 ^ BitVec.toNat n ∧
      unpackResponse u = .next (complete { u with
        acc := a, cnt := n, lrc := l, pos := q, lastnz := z, draws := d
        out0 := unpackedTrack u.cfg u.cfg.track1 p1, out1 := unpackedTrack u.cfg u.cfg.track2 p2
        out2 := unpackedTrack u.cfg u.cfg.track3 p3 }) := by
  obtain ⟨h1, h2, h3⟩ := tracks_wf hwf
  have hrun : unpackResponse u = .next (complete { discardUnpackRegs (discardUnpackRegs (discardUnpackRegs u)) with
      out0 := unpackedTrack u.cfg u.cfg.track1 p1, out1 := unpackedTrack u.cfg u.cfg.track2 p2
      out2 := unpackedTrack u.cfg u.cfg.track3 p3 }) := by
    simp only [unpackResponse, hdec]
    rw [unpackTrack_eq_unpackedTrack h1]
    exact (unpackTrack_eq_unpackedTrack (s := discardUnpackRegs u) h2 ..).trans
      (unpackTrack_eq_unpackedTrack (s := discardUnpackRegs (discardUnpackRegs u)) h3 ..)
  exact ⟨_, _, _, _, _, _, (discardUnpackRegs_bounds _).1, hrun⟩

/-- READ_RAW of an accepted response whose data RAWDEC takes (R173). -/
theorem exec_readRaw_of_decoded {s : State} {r : Response} {p1 p2 p3 : Bytes} (hs : ready s) (hwf : s.cfg.wf = true)
    (he : early s ≠ []) (hr : isResponse s.cfg (accumulated s) r) (hst : r.status = s.cfg.stOK)
    (hdec : rawDecode s.cfg r.data = .ok (p1, p2, p3)) :
    ∃ a n l q z d, BitVec.toNat a < 2 ^ BitVec.toNat n ∧
      exec .readRaw s = .next { ended 0x12 (heard [s.cfg.opcReadRaw] s) with
        rsp := r, acc := a, cnt := n, lrc := l, pos := q, lastnz := z, draws := d
        out0 := unpackedTrack s.cfg s.cfg.track1 p1, out1 := unpackedTrack s.cfg s.cfg.track2 p2
        out2 := unpackedTrack s.cfg s.cfg.track3 p3 } := by
  rw [exec_readRaw_eq_command hs, command_of_accepted (s := accept 0x12 s) he hr hst]
  exact unpackResponse_of_decoded
    (u := { heard [s.cfg.opcReadRaw] (accept 0x12 s) with rsp := r, tstate := .idle }) hwf hdec

/-- Settles O36: the decoder of READ_RAW undoes the full datablock, whatever follows it. -/
theorem readRawCompletes : Obligations.ReadRawCompletes := by
  intro s r p1 p2 p3 junk hs hwf he hr hst hdata h1 h2 h3
  have hdec := rawDecode_rawFull (c := s.cfg) h1 h2 h3 junk
  rw [← hdata] at hdec
  exact exec_readRaw_of_decoded hs hwf he hr hst hdec

end Sys2Proof.CommandProofs

/-! PROOFS, part 20. WRITE_RAW (R175): its three optional PACKs, then the raw datablock of the packed strips on the link, or
the error entry for the first strip that is too long. -/

namespace Sys2Proof.CommandProofs
open Sys2Proof.Machine Sys2Proof.Spec Sys2Proof.Laws Sys2Proof.StateProofs Sys2Proof.EncodingProofs
  Sys2Proof.RawCodecProofs Sys2Proof.TransportProofs

/-! ### The packed strips -/

/-- The state `u` with other values in PACK's working registers, which are open after each PACK (U24). -/
def withPackRegs (a : BitVec 14) (n : BitVec 4) (l : Code) (d : Nat) (u : State) : State :=
  { u with acc := a, cnt := n, lrc := l, draws := d }

/-- One track of WRITE_RAW with a well-formed `TRACK_CFG` gives its packed strip (R175). -/
theorem packOptional_of_wf {t : TrackCfg} {u : State} (h : t.wf u.cfg = true) (b : InBuf) :
    ∃ a n l d, ∀ k, packOptional t b.strip u k = k (packedStrip u.cfg t b) (withPackRegs a n l d u) := by
  have hpre := (packerPre_iff_pre ..).mp (packerPre_of_track h)
  obtain ⟨S, present⟩ := b
  cases present with
  | false => exact ⟨u.acc, u.cnt, u.lrc, u.draws, fun _ => rfl⟩
  | true =>
    have hpack : ∀ k, packOptional t (some S) u k =
        k (packed (alphabet u.cfg t.sel) t.codeWidth.toNat t.outputWidth.toNat S) (discardPackRegs u) := fun k => by
      rw [packOptional, packTrack_of_wf h, packRun_out_eq_packed hpre]
    exact ⟨_, _, _, _, hpack⟩

/-- WRITE_RAW with its three strips packed: the datablock sent, or the encoder's error (R128, R175). -/
def sendPacked (p1 p2 p3 : Bytes) (s : State) : Result :=
  match rawEncode s.cfg p1 p2 p3 with
  | .error k => raised (.precondition k) s
  | .ok block => command (s.cfg.opcWriteRaw :: block) s.cfg.tLong 0 s fun s => .next (complete s)

section
variable {s : State} {p1 p2 p3 : Bytes}

/-- WRITE_RAW packs its present operands and goes on with them; only the working registers see it (R175). -/
theorem exec_writeRaw_eq_sendPacked (hs : ready s) (hwf : s.cfg.wf = true)
    (h1 : p1 = packedStrip s.cfg s.cfg.track1 s.in0) (h2 : p2 = packedStrip s.cfg s.cfg.track2 s.in1)
    (h3 : p3 = packedStrip s.cfg s.cfg.track3 s.in2) :
    ∃ a n l d, exec .writeRaw s = sendPacked p1 p2 p3 (withPackRegs a n l d (accept 0x14 s)) := by
  obtain ⟨hwf1, hwf2, hwf3⟩ := tracks_wf hwf
  subst h1 h2 h3
  obtain ⟨a1, n1, l1, d1, hpack1⟩ := packOptional_of_wf (u := accept 0x14 s) hwf1 s.in0
  obtain ⟨a2, n2, l2, d2, hpack2⟩ := packOptional_of_wf (u := withPackRegs a1 n1 l1 d1 (accept 0x14 s)) hwf2 s.in1
  obtain ⟨a3, n3, l3, d3, hpack3⟩ := packOptional_of_wf (u := withPackRegs a2 n2 l2 d2 (accept 0x14 s)) hwf3 s.in2
  refine ⟨a3, n3, l3, d3, ?_⟩
  show execWriteRaw s = _
  rw [execWriteRaw, start_of_accepted _ hs.1 hs.2 rfl]
  exact (hpack1 _).trans ((hpack2 _).trans (hpack3 _))

end

section
variable {s u : State} {p1 p2 p3 : Bytes}

/-- Strips that fit are sent in one datablock (R129, R175). -/
theorem sendPacked_of_fits (h1 : p1.length ≤ 255) (h2 : p2.length ≤ 255) (h3 : p3.length ≤ 255) :
    sendPacked p1 p2 p3 u = command (u.cfg.opcWriteRaw :: rawBlock u.cfg p1 p2 p3) u.cfg.tLong 0 u
      fun u => .next (complete u) := by
  simp only [sendPacked, rawEncode_of_fits h1 h2 h3]

/-- A strip that is too long raises, with nothing written (R168, R195). -/
theorem sendPacked_of_too_long {k : Byte} (h : firstTooLong p1 p2 p3 = some k) :
    sendPacked p1 p2 p3 u = .next (raise (.precondition k) u) := by
  simp only [sendPacked, rawEncode, h]
  rfl

end

/-- Settles O38: with strips that fit, WRITE_RAW is the command of their datablock, which ends in one of four ways. -/
theorem writeRawOutcome : Obligations.WriteRawOutcome := by
  intro s p1 p2 p3 C hs hwf hp1 hp2 hp3 h1 h2 h3 hC
  obtain ⟨a, n, l, d, hexec⟩ := exec_writeRaw_eq_sendPacked hs hwf hp1 hp2 hp3
  have hcommand : exec .writeRaw s = command C s.cfg.tLong 0 (withPackRegs a n l d (accept 0x14 s))
      fun u => .next (complete u) := by
    rw [hexec, sendPacked_of_fits h1 h2 h3, hC]
    rfl
  refine ⟨a, n, l, d, fun r he hr hst => ?_, fun he => ?_, fun he hn => ?_, fun r he hr hst => ?_⟩
  · rw [hcommand]
    exact command_of_accepted (s := withPackRegs a n l d (accept 0x14 s)) he hr hst
  · rw [hcommand]
    exact sendWait_of_silence (s := withPackRegs a n l d (accept 0x14 s)) he
  · rw [hcommand]
    exact sendWait_of_noResponse (s := withPackRegs a n l d (accept 0x14 s)) he hn
  · rw [hcommand]
    exact command_of_turnedDown (s := withPackRegs a n l d (accept 0x14 s)) he hr hst

/-- Settles O39: the encoder stops at the first strip that is too long. -/
theorem writeRawTooLongRaisesFirst : Obligations.WriteRawTooLongRaisesFirst := by
  intro s ps k hs hwf hps hk hlong hbefore
  subst hps
  obtain ⟨a, n, l, d, hexec⟩ := exec_writeRaw_eq_sendPacked hs hwf rfl rfl rfl
  refine ⟨a, n, l, d, ?_⟩
  rw [hexec, sendPacked_of_too_long (firstTooLong_eq_some hk hlong hbefore)]
  rfl

end Sys2Proof.CommandProofs

/-! PROOFS, part 21. SET_BPI (R178): the tracks' transactions are the run over the mode bytes that are present. -/

namespace Sys2Proof.CommandProofs
open Sys2Proof.Machine Sys2Proof.Spec Sys2Proof.Laws Sys2Proof.StateProofs Sys2Proof.EncodingProofs
  Sys2Proof.TransportProofs

/-! ### The run over the mode bytes -/

section
variable {u : State} {m : Byte} {ms : List Byte} {r : Response}

theorem bpiRun_of_silence (he : early u = []) :
    bpiRun (m :: ms) u = { silent [u.cfg.opcSetBpi, m] u with err := errRegs 0x18 .timeout } :=
  if_pos he

theorem bpiRun_of_noResponse (he : early u ≠ []) (hn : noResponse u.cfg (accumulated u)) :
    bpiRun (m :: ms) u = { heard [u.cfg.opcSetBpi, m] u with
      err := errRegs 0x18 (.framing (accumulated u).length (accumulated u)) } := by
  simp only [bpiRun, if_neg he, parseResponse_of_noResponse hn]
  rfl

theorem bpiRun_of_accepted (he : early u ≠ []) (hr : isResponse u.cfg (accumulated u) r) (hst : r.status = u.cfg.stOK) :
    bpiRun (m :: ms) u = bpiRun ms { heard [u.cfg.opcSetBpi, m] u with rsp := r, mstep := u.mstep + 1 } := by
  simp only [bpiRun, if_neg he, (parseResponse_iff_isResponse ..).mpr hr, if_pos hst]

theorem bpiRun_of_turnedDown (he : early u ≠ []) (hr : isResponse u.cfg (accumulated u) r)
    (hst : r.status ≠ u.cfg.stOK) :
    bpiRun (m :: ms) u = { heard [u.cfg.opcSetBpi, m] u with
      rsp := r, err := errRegs 0x18 (.deviceStatus r.status m) } := by
  simp only [bpiRun, if_neg he, (parseResponse_iff_isResponse ..).mpr hr, if_neg hst]
  rfl

end

/-! ### One track -/

/-- An error entry from cleared results ends the operation and writes the error registers (R199). -/
theorem raise_of_cleared {op : OpSel} {u : State} (hop : u.opsel = op) (hout : u.resultsCleared) (e : Err) :
    raise e u = { complete u with err := errRegs op e } := by
  obtain ⟨h0, h1, h2⟩ := hout
  simp only [raise, complete, h0, h1, h2, hop]

/-- A track of SET_BPI takes its mode byte off the front of the run, if it has one. `hk` says that the tracks after it are
the rest of the run. -/
theorem setBpiTrack_eq_bpiRun {m : Option Byte} {ms : List Byte} {u : State} {k : State → Result}
    (hop : u.opsel = 0x18) (hout : u.resultsCleared)
    (hk : ∀ v, v.opsel = 0x18 → v.resultsCleared → k v = .next (bpiRun ms (complete v))) :
    setBpiTrack m u k = .next (bpiRun (m.toList ++ ms) (complete u)) := by
  cases m with
  | none => exact hk u hop hout
  | some b =>
    show command [u.cfg.opcSetBpi, b] u.cfg.tShort b u (fun s => k { s with mstep := s.mstep + 1 }) =
      .next (bpiRun (b :: ms) (complete u))
    rcases answer_cases u with he | ⟨he, hn⟩ | ⟨r, he, hr⟩
    · rw [command, sendWait_of_silence he, bpiRun_of_silence (u := complete u) he]
      exact congrArg _ (raise_of_cleared (u := silent _ u) hop hout _)
    · rw [command, sendWait_of_noResponse he hn, bpiRun_of_noResponse (u := complete u) he hn]
      exact congrArg _ (raise_of_cleared (u := heard _ u) hop hout _)
    · by_cases hst : r.status = u.cfg.stOK
      · rw [command_of_accepted he hr hst, bpiRun_of_accepted (u := complete u) he hr hst]
        exact hk _ hop hout
      · rw [command_of_turnedDown he hr hst, bpiRun_of_turnedDown (u := complete u) he hr hst]
        exact congrArg _ (raise_of_cleared (u := { heard _ u with rsp := r, tstate := .idle }) hop hout _)

/-- SET_BPI is the run over its mode bytes that are present, in track order (R178). -/
theorem exec_setBpi_eq_bpiRun {s : State} (hs : ready s) (m1 m2 m3 : Option Byte) :
    exec (.setBpi m1 m2 m3) s = .next (bpiRun ([m1, m2, m3].filterMap id) { ended 0x18 s with mstep := 0 }) := by
  have hmodes : [m1, m2, m3].filterMap id = m1.toList ++ (m2.toList ++ (m3.toList ++ [])) := by
    cases m1 <;> cases m2 <;> cases m3 <;> rfl
  show execSetBpi m1 m2 m3 s = _
  rw [execSetBpi, start_of_accepted _ hs.1 hs.2 rfl, hmodes]
  exact setBpiTrack_eq_bpiRun (u := { accept 0x18 s with mstep := 0 }) rfl ⟨rfl, rfl, rfl⟩ fun _ hop1 hout1 =>
    setBpiTrack_eq_bpiRun hop1 hout1 fun _ hop2 hout2 => setBpiTrack_eq_bpiRun hop2 hout2 fun _ _ _ => rfl

/-- Settles O40: the run over the mode bytes, an empty one when there is none. -/
theorem setBpiOutcome : Obligations.SetBpiOutcome := by
  intro s m1 m2 m3 hs
  exact ⟨exec_setBpi_eq_bpiRun hs m1 m2 m3, exec_setBpi_eq_bpiRun hs none none none⟩

/-- Settles O41: whatever its track, the mode byte is the whole run. -/
theorem setBpiOneModeCompletes : Obligations.SetBpiOneModeCompletes := by
  intro s m r i hs hi he hr hst
  have hrun : bpiRun [m] { ended 0x18 s with mstep := 0 } =
      { ended 0x18 (heard [s.cfg.opcSetBpi, m] s) with rsp := r, mstep := 1 } :=
    bpiRun_of_accepted (u := { ended 0x18 s with mstep := 0 }) he hr hst
  rw [← hrun]
  simp only [List.mem_cons, List.not_mem_nil, or_false] at hi
  rcases hi with rfl | rfl | rfl
  · exact exec_setBpi_eq_bpiRun hs (some m) none none
  · exact exec_setBpi_eq_bpiRun hs none (some m) none
  · exact exec_setBpi_eq_bpiRun hs none none (some m)

end Sys2Proof.CommandProofs

/-! PROOFS, part 22. Which kinds of error each operation may raise (R180, R191): read off from how each operation ends for
each answer of the device. -/

namespace Sys2Proof.CommandProofs
open Sys2Proof.Machine Sys2Proof.Spec Sys2Proof.Laws Sys2Proof.StateProofs Sys2Proof.MemoryProofs Sys2Proof.PackerProofs
  Sys2Proof.EncodingProofs Sys2Proof.IsoCodecProofs Sys2Proof.RawCodecProofs Sys2Proof.TransportProofs

/-- The operation ends without an error or in one of the kinds `kinds`. -/
def EndsWithin (kinds : List ErrKind) (res : Result) : Prop :=
  ∃ t, res = .next t ∧ (t.err.kind = .none ∨ t.err.kind ∈ kinds)

section
variable {kinds : List ErrKind} {res : Result} {s t : State} {i : Instr} {op : OpSel} {C : Bytes}

theorem endsWithin_of_clear (h : res = .next t) (ht : t.err.kind = .none) : EndsWithin kinds res :=
  ⟨t, h, .inl ht⟩

theorem endsWithin_of_error (k : ErrKind) (hk : k ∈ kinds) (h : res = .next t) (ht : t.err.kind = k) :
    EndsWithin kinds res :=
  ⟨t, h, .inr (ht ▸ hk)⟩

/-- The errors of a transaction and its status check (R192 to R194). -/
def commandKinds : List ErrKind := [.transportTimeout, .framingError, .deviceStatusError]

/-! ### The operations of one transaction -/

/-- SENDWAIT and the wire commands raise the two errors of their transaction alone (R144, R149, R151). -/
theorem endsWithin_of_unchecked (hs : ready s) (h : transaction s i = some (0x08, C)) :
    EndsWithin [.transportTimeout, .framingError] (exec i s) := by
  rcases answer_cases s with he | ⟨he, hn⟩ | ⟨r, he, hr⟩
  · exact endsWithin_of_error .transportTimeout (by decide) (silentDeviceTimesOut s i 0x08 C hs h he) rfl
  · exact endsWithin_of_error .framingError (by decide) (unparsableResponseIsFramingError s i 0x08 C hs h he hn) rfl
  · exact endsWithin_of_clear (sendwaitAndWireCommandsComplete s i C r hs h he hr) rfl

/-- An operation that looks at the status raises its command's errors, or ends as it does after an accepted response. -/
theorem endsWithin_of_checked (hs : ready s) (h : transaction s i = some (op, C)) (hop : op ≠ 0x08)
    (haccepted : ∀ r, early s ≠ [] → isResponse s.cfg (accumulated s) r → r.status = s.cfg.stOK →
      EndsWithin commandKinds (exec i s)) :
    EndsWithin commandKinds (exec i s) := by
  rcases answer_cases s with he | ⟨he, hn⟩ | ⟨r, he, hr⟩
  · exact endsWithin_of_error .transportTimeout (by decide) (silentDeviceTimesOut s i op C hs h he) rfl
  · exact endsWithin_of_error .framingError (by decide) (unparsableResponseIsFramingError s i op C hs h he hn) rfl
  · by_cases hst : r.status = s.cfg.stOK
    · exact haccepted r he hr hst
    · exact endsWithin_of_error .deviceStatusError (by decide)
        (failureStatusIsDeviceStatusError s i op C r hs h hop he hr hst) rfl

/-- WRITE_ISO, ERASE, SET_HICO, SET_LOCO and SET_BPC (R174, R176, R177, R179). -/
theorem endsWithin_of_statusOperation (hs : ready s) (h : transaction s i = some (op, C))
    (hop : op ∈ [(0x13 : OpSel), 0x15, 0x16, 0x17, 0x19]) : EndsWithin commandKinds (exec i s) :=
  endsWithin_of_checked hs h (by rintro rfl; exact absurd hop (by decide)) fun r he hr hst =>
    endsWithin_of_clear (statusOperationsComplete s i op C r hs h hop he hr hst) rfl

theorem readIso_endsWithin (hs : ready s) : EndsWithin commandKinds (exec .readIso s) := by
  refine endsWithin_of_checked hs rfl (by decide) fun r he hr hst => ?_
  rcases exec_readIso_cases hs he hr hst with ⟨o1, o2, o3, -, hend⟩ | ⟨offset, -, hend⟩
  · exact endsWithin_of_clear hend rfl
  · exact endsWithin_of_error .framingError (by decide) hend rfl

/-- With well-formed parameters no UNPACK of READ_RAW raises (R173, R219). -/
theorem readRaw_endsWithin (hs : ready s) (hwf : s.cfg.wf = true) : EndsWithin commandKinds (exec .readRaw s) := by
  refine endsWithin_of_checked hs rfl (by decide) fun r he hr hst => ?_
  cases hdec : rawDecode s.cfg r.data with
  | error offset => exact endsWithin_of_error .framingError (by decide) (exec_readRaw_of_rejected hs he hr hst hdec) rfl
  | ok strips =>
    obtain ⟨_, _, _, _, _, _, -, hend⟩ := exec_readRaw_of_decoded hs hwf he hr hst hdec
    exact endsWithin_of_clear hend rfl

/-! ### WRITE_RAW and SET_BPI -/

/-- WRITE_RAW raises for a strip that is too long, else as its command does (R168, R175). -/
theorem writeRaw_endsWithin (hs : ready s) (hwf : s.cfg.wf = true) :
    EndsWithin (.encodingPrecondition :: commandKinds) (exec .writeRaw s) := by
  cases hlong : firstTooLong (packedStrip s.cfg s.cfg.track1 s.in0) (packedStrip s.cfg s.cfg.track2 s.in1)
      (packedStrip s.cfg s.cfg.track3 s.in2) with
  | some k =>
    obtain ⟨_, _, _, _, hexec⟩ := exec_writeRaw_eq_sendPacked hs hwf rfl rfl rfl
    exact endsWithin_of_error .encodingPrecondition (by decide) (hexec.trans (sendPacked_of_too_long hlong)) rfl
  | none =>
    obtain ⟨h1, h2, h3⟩ := (firstTooLong_eq_none_iff ..).mp hlong
    obtain ⟨_, _, _, _, hcomplete, hsilent, hframing, hstatus⟩ :=
      writeRawOutcome s _ _ _ _ hs hwf rfl rfl rfl h1 h2 h3 rfl
    rcases answer_cases s with he | ⟨he, hn⟩ | ⟨r, he, hr⟩
    · exact endsWithin_of_error .transportTimeout (by decide) (hsilent he) rfl
    · exact endsWithin_of_error .framingError (by decide) (hframing he hn) rfl
    · by_cases hst : r.status = s.cfg.stOK
      · exact endsWithin_of_clear (hcomplete r he hr hst) rfl
      · exact endsWithin_of_error .deviceStatusError (by decide) (hstatus r he hr hst) rfl

/-- Each transaction of SET_BPI may raise its command's errors (R178). -/
theorem bpiRun_endsWithin (ms : List Byte) (u : State) (hu : u.err.kind = .none) :
    EndsWithin commandKinds (.next (bpiRun ms u)) := by
  induction ms generalizing u with
  | nil => exact endsWithin_of_clear rfl hu
  | cons m ms ih =>
    rcases answer_cases u with he | ⟨he, hn⟩ | ⟨r, he, hr⟩
    · exact endsWithin_of_error .transportTimeout (by decide) (congrArg _ (bpiRun_of_silence he)) rfl
    · exact endsWithin_of_error .framingError (by decide) (congrArg _ (bpiRun_of_noResponse he hn)) rfl
    · by_cases hst : r.status = u.cfg.stOK
      · rw [bpiRun_of_accepted he hr hst]
        exact ih _ hu
      · exact endsWithin_of_error .deviceStatusError (by decide) (congrArg _ (bpiRun_of_turnedDown he hr hst)) rfl

/-! ### The pure operations -/

theorem pack_endsWithin {A : Bytes} {w ow : Nat} (ht : taken (.pack A w ow) s) :
    EndsWithin [.encodingPrecondition] (exec (.pack A w ow) s) := by
  by_cases hpre : pre A w ow
  · exact endsWithin_of_clear (exec_pack_of_taken hpre ht) rfl
  · exact endsWithin_of_error .encodingPrecondition (by decide) (exec_pack_of_not_pre hpre ht.1) rfl

theorem unpack_endsWithin {A : Bytes} {w ow : Nat} (ht : taken (.unpack A w ow) s) :
    EndsWithin [.encodingPrecondition] (exec (.unpack A w ow) s) := by
  by_cases hpre : pre A w ow
  · exact endsWithin_of_clear (exec_unpack_of_taken hpre ht) rfl
  · exact endsWithin_of_error .encodingPrecondition (by decide) (exec_unpack_of_not_pre hpre ht.1) rfl

theorem isodec_endsWithin (hs : ready s) : EndsWithin [.framingError] (exec .isodec s) := by
  cases hdec : isoDecode s.cfg s.in0.bytes with
  | ok strips => exact endsWithin_of_clear (exec_isodec_of_ok hs hdec) rfl
  | error offset => exact endsWithin_of_error .framingError (by decide) (exec_isodec_of_error hs hdec) rfl

theorem rawenc_endsWithin (hs : ready s) : EndsWithin [.encodingPrecondition] (exec .rawenc s) := by
  cases hlong : firstTooLong s.in0.bytes s.in1.bytes s.in2.bytes with
  | some k => exact endsWithin_of_error .encodingPrecondition (by decide) (exec_rawenc_of_too_long hs hlong) rfl
  | none =>
    obtain ⟨h1, h2, h3⟩ := (firstTooLong_eq_none_iff ..).mp hlong
    exact endsWithin_of_clear (exec_rawenc_of_fits hs h1 h2 h3) rfl

theorem rawdec_endsWithin (hs : ready s) : EndsWithin [.framingError] (exec .rawdec s) := by
  cases hdec : rawDecode s.cfg s.in0.bytes with
  | ok strips => exact endsWithin_of_clear (exec_rawdec_of_ok hs hdec) rfl
  | error offset => exact endsWithin_of_error .framingError (by decide) (exec_rawdec_of_error hs hdec) rfl

theorem parse_endsWithin (hs : ready s) : EndsWithin [.framingError] (exec .parse s) := by
  rcases noResponse_or_isResponse s.cfg s.in0.bytes with hn | ⟨r, hr⟩
  · exact endsWithin_of_error .framingError (by decide) (exec_parse_of_noResponse hs hn) rfl
  · exact endsWithin_of_clear (exec_parse_of_isResponse hs hr) rfl

/-! ### Every operation -/

/-- With well-formed parameters an operation that is taken up raises only the kinds of its row (R180, R191). -/
theorem exec_endsWithin (hwf : s.cfg.wf = true) (ht : taken i s) : EndsWithin (mayRaise i) (exec i s) := by
  have hs : ready s := ht.1
  cases i with
  | pack => exact pack_endsWithin ht
  | unpack => exact unpack_endsWithin ht
  | isoenc => exact endsWithin_of_clear (exec_isoenc_of_taken ht) rfl
  | isodec => exact isodec_endsWithin hs
  | rawenc => exact rawenc_endsWithin hs
  | rawdec => exact rawdec_endsWithin hs
  | parse => exact parse_endsWithin hs
  | send => exact endsWithin_of_clear (sendResult s .send s.in0.bytes hs (by simp)) rfl
  | reset => exact endsWithin_of_clear (sendResult s .reset [s.cfg.opcReset] hs (by simp)) rfl
  | cmdReset => exact endsWithin_of_clear (sendResult s .cmdReset [s.cfg.opcReset] hs (by simp)) rfl
  | sendwait | cmdReadIso | cmdReadRaw | cmdWriteIso | cmdWriteRaw | cmdErase | cmdSetBpc | cmdSetBpi | cmdSetHico
    | cmdSetLoco => exact endsWithin_of_unchecked hs rfl
  | readIso => exact readIso_endsWithin hs
  | readRaw => exact readRaw_endsWithin hs hwf
  | writeIso | erase | setHico | setLoco | setBpc => exact endsWithin_of_statusOperation hs rfl (by decide)
  | writeRaw => exact writeRaw_endsWithin hs hwf
  | setBpi m1 m2 m3 =>
    rw [exec_setBpi_eq_bpiRun hs]
    exact bpiRun_endsWithin _ _ rfl

end

/-- Settles O43, from how each operation ends. -/
theorem errorKindsPerOperation : Obligations.ErrorKindsPerOperation := by
  intro i s t hwf ht h
  obtain ⟨t', h', hkind⟩ := exec_endsWithin hwf ht
  cases h.symm.trans h'
  exact hkind

end Sys2Proof.CommandProofs

/-! PROOFS, part 23. A request that is not taken up (R205, R211). -/

namespace Sys2Proof.CommandProofs
open Sys2Proof.StateProofs

/-- Settles O7: of the ways a request can end, only the refusal is left to one that is not taken up, and it leaves the state
as it was. -/
theorem refusedRequestHasNoEffect : Obligations.RefusedRequestHasNoEffect :=
  fun _ _ hrefused => exec_of_not_taken hrefused

end Sys2Proof.CommandProofs
